-- ==== Sys2Proof/Config.lean ====
section
/-! DEFINITION. The build-time parameters the spec leaves OPEN (00_scope.md R7, 92_eei_decisions.md section 6) and the free
values: everything the spec leaves to the environment or calls unspecified. None of them has a body, so no proof can see a
value of one, and a claim proved of this model holds whatever they are. -/

namespace Sys2Proof.Config

/-- One less than the width of `timer` (R7: `TW` is OPEN; 92_eei_decisions.md section 6: a positive natural number). -/
opaque timerWidthPred : Nat

/-- `TW`, the width of `timer` in bits (R7, R29), positive. -/
def timerWidth : Nat := timerWidthPred + 1

/-- A value of the `TW`-bit `timer`. Taking the reload values at this width says R7's `T_* < 2^TW` by their type. -/
abbrev TimerValue := BitVec timerWidth

/-- `T_LOAD`, the reload value for the load pulse (R7, D5). -/
opaque tLoad : TimerValue

/-- `T_POLL`, the reload value for the wait between cycles (R7, D15). -/
opaque tPoll : TimerValue

/-- `T_AUX_HOLD`, the reload value while `aux` is held asserted (R7, D13). -/
opaque tAuxHold : TimerValue

/-- `T_AUX_PAUSE`, the reload value for the pause after `aux` is released (R7, D13). -/
opaque tAuxPause : TimerValue

/-! Environment draws (R11, R176): the level of each input port at the `n`-th step that the state's `stimulus` does not give. -/

/-- The free level of `rst` (D2, D26: reset may come at any step). -/
opaque freeRst : Nat → Bool

/-- The free level of `ser_in` (R52 to R54, U2 to U4). -/
opaque freeSerIn : Nat → Bool

/-- The free level of `melody_done` (R153, U7, U11). -/
opaque freeMelodyDone : Nat → Bool

/-! What the six registers without a reset value hold after the `n`-th step when it is a reset edge (R38, R180, U5). -/

/-- The unspecified `raw` after a reset edge. -/
opaque freeRaw : Nat → BitVec 8

/-- The unspecified `tx` after a reset edge. -/
opaque freeTx : Nat → BitVec 8

/-- The unspecified `mask` after a reset edge. -/
opaque freeMask : Nat → BitVec 8

/-- The unspecified `bitcnt` after a reset edge. -/
opaque freeBitcnt : Nat → BitVec 3

/-- The unspecified `changed` after a reset edge. -/
opaque freeChanged : Nat → Bool

/-- The unspecified `timer` after a reset edge. -/
opaque freeTimer : Nat → TimerValue

/-- `pos(m)` of a mask that is not one-hot: R9 defines `pos` for one-hot masks only. No run reaches one (R23). -/
opaque freePos : BitVec 8 → BitVec 3

end Sys2Proof.Config
end

