-- ==== Sys2Proof/Word.lean ====
section
/-! DEFINITION. The word types and the event type. Nothing here computes. -/

namespace Sys2Proof

/-- A sample and every other 8-bit register (R8, R20 to R23): bit `i` is input `i`, bit 0 the least significant. -/
abbrev Byte := BitVec 8

/-- A value of the 4-bit `phase` register, format `PHASE4` (R26, R70, R74). -/
abbrev PhaseCode := BitVec 4

/-- A word of the event channel, format `EVENT16` (R70, R75). -/
abbrev EventWord := BitVec 16

/-- One event of the event channel (R134: "A model may represent events as values of an inductive type"). Its wire format
is `Event.pack`. -/
inductive Event where
  /-- `EV_BANNER` (R78, R137): no fields. -/
  | banner
  /-- `EV_PATTERN` (R76, R135): the flag, the bit string as the 3-bit number its characters write, and the magnitude. -/
  | pattern (flag : Bool) (str : BitVec 3) (mag : BitVec 3)
  /-- `EV_INPUT` (R77, R136): the input index and the new level. -/
  | input (index : BitVec 4) (level : Bool)
  deriving DecidableEq, Repr

/-- A coded instruction in one of the two formats that carry one (R70). The format comes from where the code stands (the
`phase` register or the event channel), never from its bits: code 0 and word 0x0000 are two different things. -/
inductive Code where
  /-- A code of the `phase` register. -/
  | phase4 (c : PhaseCode)
  /-- A word of the event channel. -/
  | event16 (w : EventWord)
  deriving DecidableEq, Repr

end Sys2Proof
end

