-- ==== Sys2Proof/Syntax.lean ====
section
/-! DEFINITION. The instructions: one constructor per row of spec/opcode_table.json, the 16 phases of the hardwired sequencer
(R74) and the 3 event words (R75). A phase has no operand field: its operands are the named registers (R74). -/

namespace Sys2Proof

/-- An instruction of the block: a phase (R74) or an event word (R75 to R78). -/
inductive Instr where
  /-- `BANNER`, R145. -/
  | banner
  /-- `LOAD_ASSERT`, R92. -/
  | loadAssert
  /-- `LOAD_HOLD`, R93. -/
  | loadHold
  /-- `LOAD_RELEASE`, R94. -/
  | loadRelease
  /-- `SHIFT_SAMPLE`, R96. -/
  | shiftSample
  /-- `SHIFT_ADVANCE`, R97. -/
  | shiftAdvance
  /-- `COMPARE`, R111. -/
  | compare
  /-- `SCAN`, R113. -/
  | scan
  /-- `AUX_ASSERT`, R147. -/
  | auxAssert
  /-- `AUX_HOLD`, R148. -/
  | auxHold
  /-- `AUX_RELEASE`, R149. -/
  | auxRelease
  /-- `AUX_PAUSE`, R150. -/
  | auxPause
  /-- `MELODY_START`, R152. -/
  | melodyStart
  /-- `MELODY_WAIT`, R153. -/
  | melodyWait
  /-- `STORE`, R116. -/
  | store
  /-- `POLL_WAIT`, R155. -/
  | pollWait
  /-- `EV_BANNER`, R78 and R137. -/
  | evBanner
  /-- `EV_PATTERN`, R76 and R135: fields `f`, `sss`, `mmm`. -/
  | evPattern (flag : Bool) (str : BitVec 3) (mag : BitVec 3)
  /-- `EV_INPUT`, R77 and R136: fields `iiii`, `l`. -/
  | evInput (index : BitVec 4) (level : Bool)
  deriving DecidableEq, Repr

end Sys2Proof
end

