-- ==== Sys2Proof/WellFormed.lean ====
section
/-! DEFINITION. Which events the block can emit, and so which event instructions are well formed (R79). Every phase is. -/

namespace Sys2Proof

/-- The event is one of the 25 the block emits (R79): in a pattern the bit string and the magnitude are the same number
(R76), and an input index is 1 to 4 (R72, R77). -/
def Event.wf : Event → Bool
  | .banner => true
  | .pattern _ str mag => str == mag
  | .input index _ => decide (1 ≤ index.toNat ∧ index.toNat ≤ 4)

/-- The event an event instruction stands for; a phase stands for none. -/
def Instr.event? : Instr → Option Event
  | .banner => none
  | .loadAssert => none
  | .loadHold => none
  | .loadRelease => none
  | .shiftSample => none
  | .shiftAdvance => none
  | .compare => none
  | .scan => none
  | .auxAssert => none
  | .auxHold => none
  | .auxRelease => none
  | .auxPause => none
  | .melodyStart => none
  | .melodyWait => none
  | .store => none
  | .pollWait => none
  | .evBanner => some .banner
  | .evPattern flag str mag => some (.pattern flag str mag)
  | .evInput index level => some (.input index level)

/-- The instruction is a phase of the sequencer (R74). -/
def Instr.isPhase (i : Instr) : Bool := i.event?.isNone

/-- Well-formedness: every phase (R79: no illegal code), and the event words the block can emit. -/
def Instr.wf (i : Instr) : Bool :=
  match i.event? with
  | none => true
  | some e => e.wf

end Sys2Proof
end

