-- ==== Sys2Proof/Decode.lean ====
section
/-! DEFINITION. The encodings: the phase codes (R74), the event words (R75 to R78), the decoder from either and the encoder
written from the same tables. Nothing falls through: a word of a reserved kind, or with a bit set that its kind fixes at 0, is
rejected by name (R79). -/

namespace Sys2Proof

/-! The phase codes of R74, under the names the phase rules use on the right of `phase <- …`. -/

namespace Phase

abbrev banner : PhaseCode := 0x0#4
abbrev loadAssert : PhaseCode := 0x1#4
abbrev loadHold : PhaseCode := 0x2#4
abbrev loadRelease : PhaseCode := 0x3#4
abbrev shiftSample : PhaseCode := 0x4#4
abbrev shiftAdvance : PhaseCode := 0x5#4
abbrev compare : PhaseCode := 0x6#4
abbrev scan : PhaseCode := 0x7#4
abbrev auxAssert : PhaseCode := 0x8#4
abbrev auxHold : PhaseCode := 0x9#4
abbrev auxRelease : PhaseCode := 0xA#4
abbrev auxPause : PhaseCode := 0xB#4
abbrev melodyStart : PhaseCode := 0xC#4
abbrev melodyWait : PhaseCode := 0xD#4
abbrev store : PhaseCode := 0xE#4
abbrev pollWait : PhaseCode := 0xF#4

end Phase

/-- Why a code is no instruction. -/
inductive Reject where
  /-- The kind field `[15:12]` is 0x3 to 0xF (R75, R79). -/
  | reservedKind (kind : BitVec 4)
  /-- The kind is 0x0 to 0x2 and a bit the layout fixes at 0 is 1 (R76 to R79). -/
  | reservedBits (w : EventWord)
  /-- A number that does not fit the width of its format. -/
  | tooWide
  deriving DecidableEq, Repr

/-- The phase a code names (R74). Total, because all 16 codes are phases (R79); the last arm is code 0xF alone. -/
def decodePhase (c : PhaseCode) : Instr :=
  match c.toNat with
  | 0x0 => .banner
  | 0x1 => .loadAssert
  | 0x2 => .loadHold
  | 0x3 => .loadRelease
  | 0x4 => .shiftSample
  | 0x5 => .shiftAdvance
  | 0x6 => .compare
  | 0x7 => .scan
  | 0x8 => .auxAssert
  | 0x9 => .auxHold
  | 0xA => .auxRelease
  | 0xB => .auxPause
  | 0xC => .melodyStart
  | 0xD => .melodyWait
  | 0xE => .store
  | _ => .pollWait

/-- The event instruction a word is, by the match and mask of its kind (R75: "A word `w` is of a kind when
`w & mask = match`"), with its fields (R76, R77). Whether the block can emit the word is `Instr.wf`'s question. -/
def decodeEvent (w : EventWord) : Except Reject Instr :=
  if w &&& 0xFFFF#16 = 0x0000#16 then .ok .evBanner
  else if w &&& 0xFE88#16 = 0x1000#16 then
    .ok (.evPattern (w.getLsbD 8) (w.extractLsb' 4 3) (w.extractLsb' 0 3))
  else if w &&& 0xF0EF#16 = 0x2000#16 then
    .ok (.evInput (w.extractLsb' 8 4) (w.getLsbD 4))
  else if 3 ≤ (w.extractLsb' 12 4).toNat then .error (.reservedKind (w.extractLsb' 12 4))
  else .error (.reservedBits w)

/-- The decoder of both formats. -/
def decode : Code → Except Reject Instr
  | .phase4 c => .ok (decodePhase c)
  | .event16 w => decodeEvent w

/-- A flag or a level as a 16-bit number, 0 or 1 (R134). -/
def bit16 (b : Bool) : EventWord := if b then 1#16 else 0#16

/-- The wire format of an event (R134). -/
def Event.pack : Event → EventWord
  | .banner => 0x0000#16
  | .pattern flag str mag =>
    0x1000#16 ||| (bit16 flag <<< 8) ||| (str.zeroExtend 16 <<< 4) ||| mag.zeroExtend 16
  | .input index level => 0x2000#16 ||| (index.zeroExtend 16 <<< 8) ||| (bit16 level <<< 4)

/-- The code of an instruction: a phase's from R74, an event word's from R134. -/
def encode : Instr → Code
  | .banner => .phase4 Phase.banner
  | .loadAssert => .phase4 Phase.loadAssert
  | .loadHold => .phase4 Phase.loadHold
  | .loadRelease => .phase4 Phase.loadRelease
  | .shiftSample => .phase4 Phase.shiftSample
  | .shiftAdvance => .phase4 Phase.shiftAdvance
  | .compare => .phase4 Phase.compare
  | .scan => .phase4 Phase.scan
  | .auxAssert => .phase4 Phase.auxAssert
  | .auxHold => .phase4 Phase.auxHold
  | .auxRelease => .phase4 Phase.auxRelease
  | .auxPause => .phase4 Phase.auxPause
  | .melodyStart => .phase4 Phase.melodyStart
  | .melodyWait => .phase4 Phase.melodyWait
  | .store => .phase4 Phase.store
  | .pollWait => .phase4 Phase.pollWait
  | .evBanner => .event16 (Event.pack .banner)
  | .evPattern flag str mag => .event16 (Event.pack (.pattern flag str mag))
  | .evInput index level => .event16 (Event.pack (.input index level))

/-- A number as a code of the format its width in whole bytes selects: `PHASE4` up to 8 bits, `EVENT16` above. A bit that the
format does not have must be 0. There is no byte order to choose: both formats stand in parallel bits (R57). -/
def codeOfNat (nbits w : Nat) : Except Reject Code :=
  if nbits ≤ 8 then
    if w < 16 then .ok (.phase4 (BitVec.ofNat 4 w)) else .error .tooWide
  else
    if w < 65536 then .ok (.event16 (BitVec.ofNat 16 w)) else .error .tooWide

/-- The instruction the decoder reads from a row's bits, as spec/opcode_table.json numbers them. -/
def decodeTableWord (nbits w : Nat) : Option Instr :=
  match codeOfNat nbits w with
  | .error _ => none
  | .ok c =>
    match decode c with
    | .error _ => none
    | .ok i => some i

end Sys2Proof
end

