-- ==== Sys2Proof/Machine/Constants.lean ====
section
/-! DEFINITION. The constants the source fixes (00_scope.md R6) and the one the spec chose (`DUMMY_BYTE`, R7), under the spec's
names: hardwired when the block is built (R34). -/

namespace Sys2Proof.Machine

/-- `SAMPLE_WIDTH`: bits per sample (R6). The types `Byte` and `BitVec 3` of `bitcnt` fix it. -/
def sampleWidth : Nat := 8

/-- `MELODY_NOTES`: notes in the audio collaborator's melody (R6), used by no rule of the block. -/
def melodyNotes : Nat := 8

/-- `SENTINEL`: the initial value of `prev`, all bits set (R6, R21). -/
def sentinel : Byte := 0xFF#8

/-- `MON_START_MASK`: the first (highest) monitored bit, bit 7 (R6). -/
def monStartMask : Byte := 0x80#8

/-- `MON_COUNT`: how many bits are monitored, scanned downward (R6). -/
def monCount : Nat := 4

/-- `MON_MASK`: all monitored bits (R6). -/
def monMask : Byte := 0xF0#8

/-- The mask of the last monitored bit, `MON_START_MASK >> (MON_COUNT - 1)` (R113). -/
def monLastMask : Byte := monStartMask >>> (monCount - 1)

/-- `INDEX_BASE`: an input's index is this less its bit position (R6, R72). -/
def indexBase : BitVec 4 := 8#4

/-- `FLAG_MASK`: the special flag bit, bit 3 (R6, conflict C2). -/
def flagMask : Byte := 0x08#8

/-- `DEC_START_MASK`: the first (highest) decoded bit, bit 2 (R6, conflict C1). -/
def decStartMask : Byte := 0x04#8

/-- `DEC_COUNT`: how many bits are decoded, scanned downward (R6). -/
def decCount : Nat := 3

/-- `DUMMY_BYTE`: the byte transmitted during the exchange (R7, D8). -/
def dummyByte : Byte := 0x00#8

end Sys2Proof.Machine
end

