-- ==== Sys2Proof/Machine/State.lean ====
section
/-! DEFINITION. The state: the block's twelve registers (10_state.md R20 to R33, R38), its event channel (R134), the levels of
its input ports (R35), and the model's own fields that make the environment plain data. There is no memory and no address
space of any kind (R50), no mode (R171) and no exception register (R169). -/

namespace Sys2Proof.Machine

/-- The input ports the block samples at a clock edge (R35). `clk` is not among them: a step is its rising edge (R36). -/
structure Inputs where
  /-- Synchronous reset, active high. -/
  rst : Bool
  /-- Serial data from the external register. -/
  serIn : Bool
  /-- Completion answer of the audio collaborator. -/
  melodyDone : Bool
  deriving DecidableEq, Repr, Inhabited

/-- The state of the machine. -/
structure State where
  /-- `raw`, RawSample (R20). -/
  raw : Byte
  /-- `prev`, PreviousSample (R21). -/
  prev : Byte
  /-- `tx`, the transmit shift register (R22). -/
  tx : Byte
  /-- `mask`, the one-hot scan mask (R23). -/
  mask : Byte
  /-- `phase`, the phase the next step executes (R26). -/
  phase : PhaseCode
  /-- `bitcnt`, the completed bits of the current exchange (R27). -/
  bitcnt : BitVec 3
  /-- `changed`, the block's only flag (R28). -/
  changed : Bool
  /-- `timer`, the countdown register shared by the waiting phases (R29). -/
  timer : Config.TimerValue
  /-- `load_n`, the load-pulse line, active low (R30). -/
  loadN : Bool
  /-- `sck`, the bit clock (R31). -/
  sck : Bool
  /-- `aux`, the auxiliary output line (R32). -/
  aux : Bool
  /-- `melody_req`, the request to the audio collaborator (R33). -/
  melodyReq : Bool
  /-- The event channel: every event put on it so far, oldest first (R134). -/
  events : List Event
  /-- The levels of the input ports just before the next clock edge (R35, R36). -/
  inputs : Inputs
  /-- The MODEL's own: the input levels of the steps after the next one, as far as they are chosen in advance. Where the
  list ends the levels are free values (R11, R176). -/
  stimulus : List Inputs
  /-- The MODEL's own: how many steps have been taken, the argument of every free value. -/
  tick : Nat
  /-- The MODEL's own: an event word that stands on the event channel from outside the block (a bench), to be taken in the
  next step. No phase and no reset sets it, and every step clears it, so in a run from reset it is always `none`. -/
  benchWord : Option EventWord
  deriving DecidableEq, Repr

/-- The machine has no fault: "no step of the block has a fault outcome" (R175, R165), so this type is empty. -/
inductive Fault where
  deriving DecidableEq, Repr

/-- Why the model gives a step no meaning. No phase is ever refused (R175). -/
inductive Refusal where
  /-- An instruction that has no meaning in the model yet; raised by an arm of `exec` only. No arm raises it now. Safe. -/
  | notModelled (mnemonic : String)
  /-- A word on the event channel that is not one of the 25 the block emits (R79, U12: "A sink model should `refuse` such a
  word"). Raised by `step` for a word that no kind's layout fits, and by the meanings of `EV_PATTERN` and `EV_INPUT` for
  field values the block never emits. Only a bench can bring one up. Safe: the machine stops. -/
  | reservedEventWord (w : EventWord)
  deriving DecidableEq, Repr

/-- The machine right after reset, about to take its first step with `rst` = 0 (R38, R180, R183). `prev`, `phase` and the four
lines are the spec's values. DESIGN CHOICE (notes/assumptions/1.md): the six registers R38 leaves unspecified are 0, which U5
allows by name; `ser_in` is 0; `melody_done` is 0 as R183 (c) requires. -/
def State.reset : State where
  raw := 0x00#8
  prev := sentinel
  tx := 0x00#8
  mask := 0x00#8
  phase := Phase.banner
  bitcnt := 0#3
  changed := false
  timer := 0#Config.timerWidth
  loadN := true
  sck := false
  aux := false
  melodyReq := false
  events := []
  inputs := { rst := false, serIn := false, melodyDone := false }
  stimulus := []
  tick := 0
  benchWord := none

end Sys2Proof.Machine
end

