-- ==== Sys2Proof/Machine/Operands.lean ====
section
/-! DEFINITION. The operands of the phases: the one-hot mask's position and the input index (R72), the shifts of the exchange
(R96, R97), and the decoder of a sample (R73, R130). -/

namespace Sys2Proof.Machine

/-- `{v[6:0], b}`: shift left by one, `b` enters at bit 0, bit 7 is dropped (R9, R96, R97). -/
def shiftInLow (v : Byte) (b : Bool) : Byte := (v.extractLsb' 0 7).concat b

/-- `pos(m)`, the bit position of the set bit of a one-hot mask (R9). For a mask that is not one-hot R9 gives no value: it is
a free value there (notes/assumptions/6.md). -/
def pos (m : Byte) : BitVec 3 :=
  match m.toNat with
  | 0x80 => 7#3
  | 0x40 => 6#3
  | 0x20 => 5#3
  | 0x10 => 4#3
  | 0x08 => 3#3
  | 0x04 => 2#3
  | 0x02 => 1#3
  | 0x01 => 0#3
  | _ => Config.freePos m

/-- The input index of the bit a mask selects, `INDEX_BASE - pos(mask)` (R72). -/
def inputIndex (m : Byte) : BitVec 4 := indexBase - (pos m).zeroExtend 4

/-- The value `decode` returns: flag, bit string, magnitude (R130). A character "1" is `true`, the first character first. -/
structure Decoded where
  flag : Bool
  str : List Bool
  mag : Nat
  deriving DecidableEq, Repr

/-- The repeated part of `decode` (R130): `n` more iterations with mask `m`, text `str` and sum `mag` so far. -/
def decodeLoop (s : Byte) : (n : Nat) → (m : Byte) → (str : List Bool) → (mag : Nat) → List Bool × Nat
  | 0, _, str, mag => (str, mag)
  | n + 1, m, str, mag =>
    if s &&& m ≠ 0#8 then decodeLoop s n (m >>> 1) (str ++ [true]) (mag + m.toNat)
    else decodeLoop s n (m >>> 1) (str ++ [false]) mag

/-- `decode(s)` (R130): the iteration that defines it. -/
def decodeSample (s : Byte) : Decoded :=
  let r := decodeLoop s decCount decStartMask [] 0
  { flag := decide (s &&& flagMask ≠ 0#8), str := r.1, mag := r.2 }

/-- `val(str)`: the 3-bit number whose binary digits are the characters, first character most significant (R134). -/
def valStr (str : List Bool) : BitVec 3 :=
  str.foldl (fun v b => (v.extractLsb' 0 2).concat b) 0#3

/-- The pattern-changed event that carries `decode` of a sample (R111, R135). The magnitude fits its 3 bits (R133). -/
def patternEvent (s : Byte) : Event :=
  let d := decodeSample s
  .pattern d.flag (valStr d.str) (BitVec.ofNat 3 d.mag)

/-- The single-input-changed event of the bit a mask selects, with its new level (R72, R113). -/
def inputEvent (raw m : Byte) : Event := .input (inputIndex m) (decide (raw &&& m ≠ 0#8))

end Sys2Proof.Machine
end

