-- ==== Sys2Proof/Machine/Flags.lean ====
section
/-! DEFINITION. The tests that decide what a phase does: the whole-byte comparison that sets the flag `changed` (R28, R111), the
one-bit comparison of a scan (R113), and the ends of the two counted loops (R97, R113). -/

namespace Sys2Proof.Machine

/-- `raw ≠ prev`, all 8 bits: the new value of `changed` (R28, R111). -/
def wholeByteDiffers (raw prev : Byte) : Bool := decide (raw ≠ prev)

/-- `(raw & mask) ≠ (prev & mask)`: the selected bit differs (R113). -/
def bitDiffers (raw prev m : Byte) : Bool := decide (raw &&& m ≠ prev &&& m)

/-- The mask selects the last monitored bit, so this `SCAN` is the last of its cycle (R113). -/
def lastScan (m : Byte) : Bool := decide (m = monLastMask)

/-- The exchange's eighth bit is being completed: the value of `bitcnt` before the step is 7 (R97). -/
def lastBit (n : BitVec 3) : Bool := decide (n = 7#3)

end Sys2Proof.Machine
end

