-- ==== Sys2Proof/Machine/Ops.lean ====
section
/-! DEFINITION. The named operations on the state: one write per register, `emit`, the shared wait, the reset edge, the
environment's move between two steps, and the fetch. There is no trap entry and no trap return to share (R169, R170): the only
transfer outside the phase graph is the reset edge. -/

namespace Sys2Proof.Machine

/-- `raw <- v` (R20). -/
def State.setRaw (s : State) (v : Byte) : State := { s with raw := v }

/-- `prev <- v` (R21). -/
def State.setPrev (s : State) (v : Byte) : State := { s with prev := v }

/-- `tx <- v` (R22). -/
def State.setTx (s : State) (v : Byte) : State := { s with tx := v }

/-- `mask <- v` (R23). -/
def State.setMask (s : State) (v : Byte) : State := { s with mask := v }

/-- `bitcnt <- v` (R27). -/
def State.setBitcnt (s : State) (v : BitVec 3) : State := { s with bitcnt := v }

/-- `changed <- v` (R28). -/
def State.setChanged (s : State) (v : Bool) : State := { s with changed := v }

/-- `timer <- v` (R29). -/
def State.setTimer (s : State) (v : Config.TimerValue) : State := { s with timer := v }

/-- `load_n <- v` (R30). -/
def State.setLoadN (s : State) (v : Bool) : State := { s with loadN := v }

/-- `sck <- v` (R31). -/
def State.setSck (s : State) (v : Bool) : State := { s with sck := v }

/-- `aux <- v` (R32). -/
def State.setAux (s : State) (v : Bool) : State := { s with aux := v }

/-- `melody_req <- v` (R33). -/
def State.setMelodyReq (s : State) (v : Bool) : State := { s with melodyReq := v }

/-- `phase <- p` (R9, R26). -/
def State.goto (s : State) (p : PhaseCode) : State := { s with phase := p }

/-- `emit e`: the step puts one event on the event channel (R9, R134). -/
def State.emit (s : State) (e : Event) : State := { s with events := s.events ++ [e] }

/-- `emit e` where a condition holds, and nothing where it does not. -/
def State.emitIf (s : State) (b : Bool) (e : Event) : State := if b then s.emit e else s

/-- What the four waiting phases do (R29): leave for `p` when `timer` reads 0, else count it down and stay. -/
def State.waitThen (s : State) (p : PhaseCode) : State :=
  if s.timer = 0#Config.timerWidth then s.goto p else s.setTimer (s.timer - 1#Config.timerWidth)

/-- A clock edge with `rst` = 1, whatever the phase (R36, R180): the six specified registers take their reset values, the six
others become free values, no phase executes and no event is emitted. -/
def State.resetEdge (s : State) : State :=
  { s with
    raw := Config.freeRaw s.tick
    prev := sentinel
    tx := Config.freeTx s.tick
    mask := Config.freeMask s.tick
    phase := Phase.banner
    bitcnt := Config.freeBitcnt s.tick
    changed := Config.freeChanged s.tick
    timer := Config.freeTimer s.tick
    loadN := true
    sck := false
    aux := false
    melodyReq := false }

/-- The input levels of a step that the stimulus does not give: free values (R11). -/
def freeInputs (n : Nat) : Inputs :=
  { rst := Config.freeRst n, serIn := Config.freeSerIn n, melodyDone := Config.freeMelodyDone n }

/-- The environment's move after a clock edge: the input ports take the levels of the next step, and a bench's event word,
which stands for one step, is gone. -/
def State.advance (s : State) : State :=
  match s.stimulus with
  | i :: rest => { s with inputs := i, stimulus := rest, tick := s.tick + 1, benchWord := none }
  | [] => { s with inputs := freeInputs s.tick, tick := s.tick + 1, benchWord := none }

/-- What the next step with `rst` = 0 runs: the phase `phase` names (R36), or, in a bench step, the event word on the channel. -/
def State.fetch (s : State) : Except Reject Instr :=
  match s.benchWord with
  | none => .ok (decodePhase s.phase)
  | some w => decodeEvent w

/-- Put an instruction's bits where the next step finds them: a phase's in `phase`, an event word's on the event channel, with
`rst` = 0 so that the step runs it. -/
def State.placeWord (s : State) (nbits w : Nat) : State :=
  let t := { s with inputs := { s.inputs with rst := false } }
  if nbits ≤ 8 then { t with phase := BitVec.ofNat 4 w, benchWord := none }
  else { t with benchWord := some (BitVec.ofNat 16 w) }

end Sys2Proof.Machine
end

