-- ==== Sys2Proof/Machine/Detector.lean ====
section
/-! DEFINITION. The Change Detector: compare, per-bit scan, store (41_change_detector.md). -/

namespace Sys2Proof.Machine

/-- `COMPARE` (R111): the event's payload is `decode` of `raw` alone. -/
def execCompare (s : State) : Host.Outcome State Fault Refusal :=
  .next ((((s.emitIf (wholeByteDiffers s.raw s.prev) (patternEvent s.raw)).setChanged
    (wholeByteDiffers s.raw s.prev)).setMask monStartMask).goto Phase.scan)

/-- Where `SCAN` goes (R113): on to the side effect or to `STORE` from the last monitored bit, else `phase` is unchanged. -/
def scanSuccessor (s : State) : PhaseCode :=
  if lastScan s.mask then (if s.changed then Phase.auxAssert else Phase.store) else s.phase

/-- `SCAN` (R113): one bit position, the new level, and the mask shifted in every case. -/
def execScan (s : State) : Host.Outcome State Fault Refusal :=
  .next (((s.emitIf (bitDiffers s.raw s.prev s.mask) (inputEvent s.raw s.mask)).setMask (s.mask >>> 1)).goto
    (scanSuccessor s))

/-- `STORE` (R116). -/
def execStore (s : State) : Host.Outcome State Fault Refusal :=
  .next (((s.setPrev s.raw).setTimer Config.tPoll).goto Phase.pollWait)

end Sys2Proof.Machine
end

