-- ==== Sys2Proof/Machine/Driver.lean ====
section
/-! DEFINITION. The driver: the start-up banner and the wait between cycles (43_side_effects_and_driver.md, sections 1 and 3). -/

namespace Sys2Proof.Machine

/-- `BANNER` (R145). -/
def execBanner (s : State) : Host.Outcome State Fault Refusal :=
  .next ((s.emit .banner).goto Phase.loadAssert)

/-- `POLL_WAIT` (R155). -/
def execPollWait (s : State) : Host.Outcome State Fault Refusal :=
  .next (s.waitThen Phase.loadAssert)

end Sys2Proof.Machine
end

