-- ==== Sys2Proof/Machine/Events.lean ====
section
/-! DEFINITION. The event words as instructions: a word on the event channel is one event, delivered in its step (R134). The
phases that emit do so by the same `State.emit` inside their own step; these three meanings are for a word that stands on the
channel by itself (`State.benchWord`). Nothing but the channel changes: an event has no other effect (R134 to R137). -/

namespace Sys2Proof.Machine

/-- Deliver one event; a word the block never emits is refused (R79, U12). -/
def deliver (s : State) (e : Event) : Host.Outcome State Fault Refusal :=
  if e.wf then .next (s.emit e) else .refused (.reservedEventWord e.pack)

/-- `EV_BANNER` (R78, R137). -/
def execEvBanner (s : State) : Host.Outcome State Fault Refusal := deliver s .banner

/-- `EV_PATTERN` (R76, R135). -/
def execEvPattern (flag : Bool) (str mag : BitVec 3) (s : State) : Host.Outcome State Fault Refusal :=
  deliver s (.pattern flag str mag)

/-- `EV_INPUT` (R77, R136). -/
def execEvInput (index : BitVec 4) (level : Bool) (s : State) : Host.Outcome State Fault Refusal :=
  deliver s (.input index level)

end Sys2Proof.Machine
end

