-- ==== Sys2Proof/Machine/Reader.lean ====
section
/-! DEFINITION. The Register Reader: the load pulse and the bit exchange (40_register_reader.md). Every right-hand side reads
the state before the step (R9). -/

namespace Sys2Proof.Machine

/-- `LOAD_ASSERT` (R92). -/
def execLoadAssert (s : State) : Host.Outcome State Fault Refusal :=
  .next (((s.setLoadN false).setTimer Config.tLoad).goto Phase.loadHold)

/-- `LOAD_HOLD` (R93). -/
def execLoadHold (s : State) : Host.Outcome State Fault Refusal :=
  .next (s.waitThen Phase.loadRelease)

/-- `LOAD_RELEASE` (R94). -/
def execLoadRelease (s : State) : Host.Outcome State Fault Refusal :=
  .next ((((s.setLoadN true).setBitcnt 0#3).setTx dummyByte).goto Phase.shiftSample)

/-- `SHIFT_SAMPLE` (R96): `ser_in` is read as it is just before the step (R36). -/
def execShiftSample (s : State) : Host.Outcome State Fault Refusal :=
  .next (((s.setRaw (shiftInLow s.raw s.inputs.serIn)).setSck true).goto Phase.shiftAdvance)

/-- `SHIFT_ADVANCE` (R97): `bitcnt` wraps at 8, and the branch reads its value before the step. -/
def execShiftAdvance (s : State) : Host.Outcome State Fault Refusal :=
  .next ((((s.setSck false).setTx (shiftInLow s.tx false)).setBitcnt (s.bitcnt + 1#3)).goto
    (if lastBit s.bitcnt then Phase.compare else Phase.shiftSample))

end Sys2Proof.Machine
end

