-- ==== Sys2Proof/Machine/SideEffects.lean ====
section
/-! DEFINITION. The side effect of a change: the auxiliary pulse and the melody request (43_side_effects_and_driver.md, section
2). -/

namespace Sys2Proof.Machine

/-- `AUX_ASSERT` (R147). -/
def execAuxAssert (s : State) : Host.Outcome State Fault Refusal :=
  .next (((s.setAux true).setTimer Config.tAuxHold).goto Phase.auxHold)

/-- `AUX_HOLD` (R148). -/
def execAuxHold (s : State) : Host.Outcome State Fault Refusal :=
  .next (s.waitThen Phase.auxRelease)

/-- `AUX_RELEASE` (R149). -/
def execAuxRelease (s : State) : Host.Outcome State Fault Refusal :=
  .next (((s.setAux false).setTimer Config.tAuxPause).goto Phase.auxPause)

/-- `AUX_PAUSE` (R150). -/
def execAuxPause (s : State) : Host.Outcome State Fault Refusal :=
  .next (s.waitThen Phase.melodyStart)

/-- `MELODY_START` (R152). -/
def execMelodyStart (s : State) : Host.Outcome State Fault Refusal :=
  .next ((s.setMelodyReq true).goto Phase.melodyWait)

/-- `MELODY_WAIT` (R153): an unbounded wait; while `melody_done` is 0 nothing changes. -/
def execMelodyWait (s : State) : Host.Outcome State Fault Refusal :=
  .next (if s.inputs.melodyDone then (s.setMelodyReq false).goto Phase.store else s)

end Sys2Proof.Machine
end

