-- ==== Sys2Proof/Machine/Dispatch.lean ====
section
/-! DEFINITION. The dispatch: one arm per instruction. -/

namespace Sys2Proof.Machine

/-- The effect of one instruction. -/
def exec (i : Instr) (s : State) : Host.Outcome State Fault Refusal :=
  match i with
  | .banner => Sys2Proof.Machine.execBanner s
  | .loadAssert => Sys2Proof.Machine.execLoadAssert s
  | .loadHold => Sys2Proof.Machine.execLoadHold s
  | .loadRelease => Sys2Proof.Machine.execLoadRelease s
  | .shiftSample => Sys2Proof.Machine.execShiftSample s
  | .shiftAdvance => Sys2Proof.Machine.execShiftAdvance s
  | .compare => Sys2Proof.Machine.execCompare s
  | .scan => Sys2Proof.Machine.execScan s
  | .auxAssert => Sys2Proof.Machine.execAuxAssert s
  | .auxHold => Sys2Proof.Machine.execAuxHold s
  | .auxRelease => Sys2Proof.Machine.execAuxRelease s
  | .auxPause => Sys2Proof.Machine.execAuxPause s
  | .melodyStart => Sys2Proof.Machine.execMelodyStart s
  | .melodyWait => Sys2Proof.Machine.execMelodyWait s
  | .store => Sys2Proof.Machine.execStore s
  | .pollWait => Sys2Proof.Machine.execPollWait s
  | .evBanner => Sys2Proof.Machine.execEvBanner s
  | .evPattern flag str mag => Sys2Proof.Machine.execEvPattern flag str mag s
  | .evInput index level => Sys2Proof.Machine.execEvInput index level s

end Sys2Proof.Machine
end

