-- ==== Sys2Proof/Machine/Step.lean ====
section
/-! DEFINITION. One step: one rising edge of `clk` (R36), and the environment's move to the next. -/

namespace Sys2Proof.Machine

/-- The outcome of an instruction, followed by the environment's move where it gives a next state. -/
def thenAdvance (o : Host.Outcome State Fault Refusal) : Host.Outcome State Fault Refusal :=
  match o with
  | .next t => .next t.advance
  | .fault f => .fault f
  | .refused r => .refused r

/-- One rising edge of `clk` (R36): with `rst` = 1 the reset edge, which wins over everything (R168); with `rst` = 0 the one
instruction that `fetch` gives. A bench word that is no instruction is refused (U12). -/
def step (s : State) : Host.Outcome State Fault Refusal :=
  if s.inputs.rst then .next s.resetEdge.advance
  else
    match s.fetch with
    | .ok i => thenAdvance (exec i s)
    | .error _ => .refused (.reservedEventWord (s.benchWord.getD 0#16))

/-- `s` with one instruction placed where `step` fetches its next one. -/
def State.withFetchWord (s : State) (nbits w : Nat) : State := s.placeWord nbits w

end Sys2Proof.Machine
end

