-- ==== Sys2Proof/Machine/ExternalRegister.lean ====
section
/-! DEFINITION. The informative reference model of the external register (20_memory.md section 7, from general knowledge, not
normative): an environment that can stand behind the block's pins. The step does not use it, and a claim about the block holds
for every environment. -/

namespace Sys2Proof.Machine

/-- The external register's contents. -/
structure ExtReg where
  sr : Byte
  deriving DecidableEq, Repr

/-- `ser_in = sr[7]` at all times. -/
def ExtReg.serIn (r : ExtReg) : Bool := r.sr.getLsbD 7

/-- One step: transparent while the pulse is low (`loadN` before the step), else shifted by a rising edge of `sck` under a low
enable, with the register's own serial input `ds`. -/
def ExtReg.next (r : ExtReg) (loadN sckBefore sckAfter enN : Bool) (inputs : Byte) (ds : Bool) : ExtReg :=
  if loadN = false then { sr := inputs }
  else if sckBefore = false ∧ sckAfter = true ∧ enN = false then { sr := (r.sr.extractLsb' 0 7).concat ds }
  else r

/-- The register after steps with the pulse low, one for each of the levels its inputs then have. -/
def ExtReg.afterPulse (r : ExtReg) : List Byte → ExtReg
  | [] => r
  | v :: rest => (r.next false false false false v false).afterPulse rest

/-- The register after one rising edge of `sck` for each of the levels of `ds`. -/
def ExtReg.afterEdges (r : ExtReg) : List Bool → ExtReg
  | [] => r
  | ds :: rest => (r.next true false true false 0x00#8 ds).afterEdges rest

end Sys2Proof.Machine
end

