-- ==== Sys2Proof/Machine/Outputs.lean ====
section
/-! DEFINITION. The output ports (R35) as functions of the state before the step (R36, R37), written from R37 and not from the
phases' meanings. -/

namespace Sys2Proof.Machine

/-- The word on the event channel during the next step, if one is valid (R37): none while `rst` = 1; a bench's word while one
stands there; else `BANNER` always, `COMPARE` when `raw ≠ prev`, `SCAN` when the scanned bit differs. -/
def State.offeredWord (s : State) : Option EventWord :=
  if s.inputs.rst then none
  else
    match s.benchWord with
    | some w => some w
    | none =>
      if s.phase = Phase.banner then some (Event.pack .banner)
      else if s.phase = Phase.compare ∧ wholeByteDiffers s.raw s.prev then some (patternEvent s.raw).pack
      else if s.phase = Phase.scan ∧ bitDiffers s.raw s.prev s.mask then some (inputEvent s.raw s.mask).pack
      else none

/-- The output ports of R35. -/
structure Outputs where
  loadN : Bool
  sck : Bool
  serOut : Bool
  enN : Bool
  aux : Bool
  melodyReq : Bool
  evValid : Bool
  evWord : EventWord
  deriving DecidableEq, Repr

/-- The levels on the output ports during the next step: the registered lines as they stand before it (R36), `ser_out` =
`tx[7]`, `en_n` = 0, and the event channel (R37). -/
def State.outputs (s : State) : Outputs where
  loadN := s.loadN
  sck := s.sck
  serOut := s.tx.getLsbD 7
  enN := false
  aux := s.aux
  melodyReq := s.melodyReq
  evValid := s.offeredWord.isSome
  evWord := s.offeredWord.getD 0x0000#16

end Sys2Proof.Machine
end

