-- ==== Sys2Proof/Machine/Transaction.lean ====
section
/-! DEFINITION. The transaction level (R90, R110, R115): the source's own contract of `update`, the pseudo-operations of R82 as
lists of phases, and the console text the source fixes (R81). The step does not use any of it: it is what the phase level is
claimed to implement (R157). -/

namespace Sys2Proof.Machine

/-- What one call of `update` does (R110): the events it reports in order, whether the side effect of step 4 happens, and the
new PreviousSample. -/
structure Report where
  events : List Event
  sideEffect : Bool
  prev : Byte
  deriving DecidableEq, Repr

/-- Step 2 of `update` for one bit position `p` (R110): the input's event if the bit differs. -/
def inputReport (prev s : Byte) (p : Nat) : List Event :=
  if s.getLsbD p ≠ prev.getLsbD p then [.input (BitVec.ofNat 4 (8 - p)) (s.getLsbD p)] else []

/-- `update(s)` with PreviousSample `prev` (R110). -/
def update (prev s : Byte) : Report where
  events :=
    (if s ≠ prev then [patternEvent s] else []) ++ [7, 6, 5, 4].flatMap (inputReport prev s)
  sideEffect := decide (s ≠ prev)
  prev := s

/-- The events of a sequence of calls of `update` (R157). -/
def updates : (prev : Byte) → List Byte → List Event
  | _, [] => []
  | prev, s :: rest => (update prev s).events ++ updates s rest

/-- PreviousSample after a sequence of calls of `update` (R110 step 5). -/
def lastSample : (prev : Byte) → List Byte → Byte
  | prev, [] => prev
  | _, s :: rest => lastSample s rest

/-- The TransitionSet (R72, R115): not stored, recomputed. -/
def transitionSet (prev s : Byte) : Byte := (s ^^^ prev) &&& monMask

/-- A waiting phase's executions: `T + 1` of them for reload value `T` (R29). -/
def waits (i : Instr) (t : Config.TimerValue) : List Instr := List.replicate (t.toNat + 1) i

/-- The expansion of `READ` (R82, R91). -/
def readPhases : List Instr :=
  [.loadAssert] ++ waits .loadHold Config.tLoad ++ [.loadRelease] ++
    (List.replicate 8 [Instr.shiftSample, .shiftAdvance]).flatten

/-- The part of `UPDATE` that only a changed cycle runs (R82), with `w` executions of `MELODY_WAIT`. -/
def sideEffectPhases (w : Nat) : List Instr :=
  [.auxAssert] ++ waits .auxHold Config.tAuxHold ++ [.auxRelease] ++ waits .auxPause Config.tAuxPause ++
    [.melodyStart] ++ List.replicate w .melodyWait

/-- The expansion of `UPDATE` (R82). -/
def updatePhases (changed : Bool) (w : Nat) : List Instr :=
  [.compare, .scan, .scan, .scan, .scan] ++ (if changed then sideEffectPhases w else []) ++ [.store]

/-- The expansion of `POLL`, one poll cycle (R82). -/
def pollPhases (changed : Bool) (w : Nat) : List Instr :=
  readPhases ++ updatePhases changed w ++ waits .pollWait Config.tPoll

/-- A bit string as text, each bit a character "1" or "0" (R73). -/
def bitText (str : List Bool) : String := String.ofList (str.map fun b => if b then '1' else '0')

/-- The console line of an event where the source gives its text (R81): "DIP n state: ON" or "DIP n state: OFF". The text of
the banner and of the decode line is not in the source (N12). -/
def consoleLine? : Event → Option String
  | .banner => none
  | .pattern _ _ _ => none
  | .input index level => some ("DIP " ++ toString index.toNat ++ " state: " ++ (if level then "ON" else "OFF"))

end Sys2Proof.Machine
end

