-- ==== Sys2Proof/Safety.lean ====
section
/-! DEFINITION. The terms claims are stated in: runs, the environment's contract (R52, R53, R154), the build's constraints (R7),
what holds in every state of a run from reset (`State.Inv`), and what an observer of the block can tell apart. -/

namespace Sys2Proof.Machine

/-! Runs. -/

/-- `n` steps from `s`. -/
def State.run (s : State) (n : Nat) : Host.Outcome State Fault Refusal := Host.Core.run Sys2Proof.core n s

/-- The states before each of the first `n` steps from `s`. -/
def State.history (s : State) : (n : Nat) → List State
  | 0 => []
  | n + 1 =>
    s :: (match step s with
          | .next t => t.history n
          | .fault _ => []
          | .refused _ => [])

/-- The phases that the first `n` steps from `s` execute. -/
def State.phasesRun (s : State) (n : Nat) : List Instr := (s.history n).map fun t => decodePhase t.phase

/-! The environment. The input levels of the steps to come depend on `stimulus` and `tick` alone, which no instruction writes. -/

/-- The input levels that the `n`-th step from `s` reads (the next step is number 0). -/
def State.inputsAt (s : State) : (n : Nat) → Inputs
  | 0 => s.inputs
  | n + 1 => s.advance.inputsAt n

/-- `rst` = 0 in the next `n` steps. -/
def NoReset (s : State) (n : Nat) : Prop := ∀ k, k < n → (s.inputsAt k).rst = false

/-- The latching contract (R52, D21): bit `i` of the latched byte `L` is some level that input `i` had during the load pulse,
`during` being the levels of the 8 inputs over its steps. -/
def Latches (during : List Byte) (L : Byte) : Prop := ∀ i, i < 8 → ∃ v ∈ during, L.getLsbD i = v.getLsbD i

/-- The serial contract (R53): the latched byte `L` is presented on `ser_in` most significant bit first, the first bit in step
`first` and each next bit two steps later. -/
def Presents (s : State) (L : Byte) (first : Nat) : Prop :=
  ∀ k, k < 8 → (s.inputsAt (first + 2 * k)).serIn = L.getLsbD (7 - k)

/-- The audio collaborator's answer (R153, R154): `melody_done` is 1 in the `w`-th of the steps from `first` on and 0 in the
ones before it. -/
def Answers (s : State) (first w : Nat) : Prop :=
  1 ≤ w ∧ (∀ k, k + 1 < w → (s.inputsAt (first + k)).melodyDone = false) ∧
    (s.inputsAt (first + (w - 1))).melodyDone = true

/-! The build (R7, R95). `F_CLK` enters no functional rule, so it is an argument here and nowhere in the machine. -/

/-- `(T_POLL + 1) / F_CLK ≥ 10 ms` (R7). -/
def PollIntervalMet (fClkHz : Rat) : Prop := ((Config.tPoll.toNat + 1 : Nat) : Rat) / fClkHz ≥ 1 / 100

/-- `(T_LOAD + 2) / F_CLK` is at least the external register's minimum load pulse width (R7, R95, R184). -/
def LoadPulseMet (fClkHz minimumSeconds : Rat) : Prop :=
  ((Config.tLoad.toNat + 2 : Nat) : Rat) / fClkHz ≥ minimumSeconds

/-! Poll cycles. Steps are numbered from the step that executes `LOAD_ASSERT`, which is number 0. -/

/-- The first `SHIFT_SAMPLE` of a poll cycle. -/
def firstSampleStep : Nat := Config.tLoad.toNat + 3

/-- The `COMPARE` of a poll cycle: the number of steps of `read()`, `19 + T_LOAD` (R91). -/
def readSteps : Nat := 19 + Config.tLoad.toNat

/-- The first `MELODY_WAIT` of a changed poll cycle. -/
def firstMelodyWaitStep : Nat :=
  29 + Config.tLoad.toNat + Config.tAuxHold.toNat + Config.tAuxPause.toNat

/-- The steps of a poll cycle without a change (R194). -/
def quietCycleSteps : Nat := 26 + Config.tLoad.toNat + Config.tPoll.toNat

/-- The steps of a poll cycle with a change and `w` executions of `MELODY_WAIT` (R194). -/
def changedCycleSteps (w : Nat) : Nat :=
  31 + Config.tLoad.toNat + Config.tPoll.toNat + Config.tAuxHold.toNat + Config.tAuxPause.toNat + w

/-- The environment of one poll cycle of `n` steps from `s` with latched byte `L` (R157): no reset, the byte presented, and,
if it differs from `prev`, the melody answered. -/
def CycleEnvironment (s : State) (L : Byte) (n : Nat) : Prop :=
  NoReset s n ∧ Presents s L firstSampleStep ∧
    ((L = s.prev ∧ n = quietCycleSteps) ∨
      (L ≠ s.prev ∧ ∃ w, Answers s firstMelodyWaitStep w ∧ n = changedCycleSteps w))

/-- `t` is reached from `s` by consecutive poll cycles whose latched bytes are the list's. -/
def PollsTo : State → List Byte → State → Prop
  | s, [], t => s = t
  | s, L :: rest, t => ∃ n u, CycleEnvironment s L n ∧ s.run n = .next u ∧ PollsTo u rest t

/-! The invariant. -/

/-- What holds in every state of a run from reset: the lines and the sequencer's position agree (R92, R95, R98, R151, R155), the
counters and the mask are in the range their loop gives them (R23, R29), `changed` says what it records (R28), `prev` is what
R40 says, and every event emitted is one the block can emit (R79). -/
structure State.Inv (s : State) : Prop where
  /-- No bench word stands on the channel. -/
  bench : s.benchWord = none
  /-- `load_n` is low exactly in `LOAD_HOLD` and `LOAD_RELEASE` (R95). -/
  loadLow : s.loadN = false ↔ s.phase = Phase.loadHold ∨ s.phase = Phase.loadRelease
  /-- `sck` is high exactly in `SHIFT_ADVANCE` (R98). -/
  sckHigh : s.sck = true ↔ s.phase = Phase.shiftAdvance
  /-- `aux` is high exactly in `AUX_HOLD` and `AUX_RELEASE` (R151). -/
  auxHigh : s.aux = true ↔ s.phase = Phase.auxHold ∨ s.phase = Phase.auxRelease
  /-- `melody_req` is high exactly in `MELODY_WAIT` (R152, R153). -/
  requesting : s.melodyReq = true ↔ s.phase = Phase.melodyWait
  /-- The scan's mask is one of the four monitored bits (R23). -/
  maskMonitored : s.phase = Phase.scan → s.mask ∈ [0x80#8, 0x40#8, 0x20#8, 0x10#8]
  /-- From `COMPARE` to `STORE`, `changed` says whether `raw ≠ prev` (R28). -/
  changedRecords : s.phase ∈ [Phase.scan, Phase.auxAssert, Phase.auxHold, Phase.auxRelease, Phase.auxPause,
    Phase.melodyStart, Phase.melodyWait, Phase.store] → s.changed = decide (s.raw ≠ s.prev)
  /-- The side effect runs only in a cycle with a change (R146). -/
  sideEffectChanged : s.phase ∈ [Phase.auxAssert, Phase.auxHold, Phase.auxRelease, Phase.auxPause,
    Phase.melodyStart, Phase.melodyWait] → s.changed = true
  /-- The dummy byte is all zero, so `ser_out` is 0 during the exchange (R97). -/
  txZero : s.phase = Phase.shiftSample ∨ s.phase = Phase.shiftAdvance → s.tx = 0x00#8
  /-- Each wait counts down from its reload value (R29). -/
  loadTimer : s.phase = Phase.loadHold → s.timer ≤ Config.tLoad
  auxHoldTimer : s.phase = Phase.auxHold → s.timer ≤ Config.tAuxHold
  auxPauseTimer : s.phase = Phase.auxPause → s.timer ≤ Config.tAuxPause
  pollTimer : s.phase = Phase.pollWait → s.timer ≤ Config.tPoll
  /-- After reset, `prev` is the sentinel (R21, R40). -/
  prevAfterReset : s.phase = Phase.banner → s.prev = 0xFF#8
  /-- After `STORE`, `prev` is the sample of this cycle (R40). -/
  prevAfterStore : s.phase = Phase.pollWait → s.prev = s.raw
  /-- Every event emitted is one of the 25 (R79). -/
  emittable : ∀ e, e ∈ s.events → e.wf = true

/-! Observation. -/

/-- The two states agree on everything an observer of the lines and the event channel can see now, on `prev`, on the
sequencer's position and on the environment. `raw`, `tx`, `mask`, `bitcnt`, `changed` and `timer` may differ. -/
structure State.Alike (s t : State) : Prop where
  phase : s.phase = t.phase
  prev : s.prev = t.prev
  loadN : s.loadN = t.loadN
  sck : s.sck = t.sck
  aux : s.aux = t.aux
  melodyReq : s.melodyReq = t.melodyReq
  events : s.events = t.events
  inputs : s.inputs = t.inputs
  stimulus : s.stimulus = t.stimulus
  tick : s.tick = t.tick
  benchWord : s.benchWord = t.benchWord

end Sys2Proof.Machine
end

