-- ==== Sys2Proof/Certificates/Slice0/Obligations.lean ====
section
/-! DEFINITION. The statements for the provers. Phase codes stand here as numbers, read off R74, so that a statement does not
lean on the model's own names for them. Where a statement takes a premise about a run it is one of Safety.lean's. -/

open Sys2Proof Sys2Proof.Machine

/-! ## Encoding -/

/-- R74: every one of the 16 codes is the phase the table says. -/
def Obligations.PhaseCodesDecodeAsTabled : Prop :=
  decodeTableWord 8 0b0000 = some .banner ∧ decodeTableWord 8 0b0001 = some .loadAssert ∧
  decodeTableWord 8 0b0010 = some .loadHold ∧ decodeTableWord 8 0b0011 = some .loadRelease ∧
  decodeTableWord 8 0b0100 = some .shiftSample ∧ decodeTableWord 8 0b0101 = some .shiftAdvance ∧
  decodeTableWord 8 0b0110 = some .compare ∧ decodeTableWord 8 0b0111 = some .scan ∧
  decodeTableWord 8 0b1000 = some .auxAssert ∧ decodeTableWord 8 0b1001 = some .auxHold ∧
  decodeTableWord 8 0b1010 = some .auxRelease ∧ decodeTableWord 8 0b1011 = some .auxPause ∧
  decodeTableWord 8 0b1100 = some .melodyStart ∧ decodeTableWord 8 0b1101 = some .melodyWait ∧
  decodeTableWord 8 0b1110 = some .store ∧ decodeTableWord 8 0b1111 = some .pollWait

/-- R75, R76, R77: an event word is of a kind exactly when `w & mask = match`, and its fields stand where the layout says. -/
def Obligations.EventWordsDecodeByMatchAndMask : Prop :=
  ∀ w : EventWord,
    (w &&& 0xFFFF#16 = 0x0000#16 ↔ decode (.event16 w) = .ok .evBanner) ∧
    (w &&& 0xFE88#16 = 0x1000#16 ↔
      decode (.event16 w) =
        .ok (.evPattern (w.getLsbD 8) (BitVec.ofNat 3 (w.toNat / 16)) (BitVec.ofNat 3 w.toNat))) ∧
    (w &&& 0xF0EF#16 = 0x2000#16 ↔
      decode (.event16 w) = .ok (.evInput (BitVec.ofNat 4 (w.toNat / 256)) (w.getLsbD 4))) ∧
    (3 ≤ w.toNat / 4096 → ∃ r, decode (.event16 w) = .error r)

/-- Decoding what the encoder writes gives the instruction back, for every instruction and every operand value, the event words
the block never emits among them. -/
def Obligations.DecodeOfEncode : Prop := ∀ i : Instr, decode (encode i) = .ok i

/-- Each code has one meaning: encoding what the decoder reads gives the code back, so no bit of one is dropped. -/
def Obligations.EncodeOfDecode : Prop := ∀ (c : Code) (i : Instr), decode c = .ok i → encode i = c

/-- R79: all 16 phase codes are phases; the emittable words are exactly the 25 listed; every step of a state of a run emits
only those; and each of the 25 is emitted in some such state. -/
def Obligations.EmittedWordsAreTheTwentyFive : Prop :=
  (∀ c : PhaseCode, ∃ i, i.isPhase = true ∧ decode (.phase4 c) = .ok i) ∧
  (∀ w : EventWord, (∃ e : Event, e.wf = true ∧ e.pack = w) ↔
    w ∈ [0x0000#16,
      0x1000#16, 0x1011#16, 0x1022#16, 0x1033#16, 0x1044#16, 0x1055#16, 0x1066#16, 0x1077#16,
      0x1100#16, 0x1111#16, 0x1122#16, 0x1133#16, 0x1144#16, 0x1155#16, 0x1166#16, 0x1177#16,
      0x2110#16, 0x2100#16, 0x2210#16, 0x2200#16, 0x2310#16, 0x2300#16, 0x2410#16, 0x2400#16]) ∧
  (∀ s t : State, s.Inv → step s = .next t → ∀ e, e ∈ t.events → e.wf = true) ∧
  (∀ e : Event, e.wf = true → ∃ s t : State, s.Inv ∧ step s = .next t ∧ t.events = s.events ++ [e])

/-- R79 and U12: a word of a reserved kind or with a nonzero reserved bit is rejected, a bench that puts one on the channel
stops the machine by name, and so do fields the block never emits. -/
def Obligations.ReservedEventWordsAreRefused : Prop :=
  (∀ w : EventWord, 3 ≤ w.toNat / 4096 →
    decode (.event16 w) = .error (.reservedKind (BitVec.ofNat 4 (w.toNat / 4096)))) ∧
  (∀ (s : State) (w : EventWord) (r : Reject), decode (.event16 w) = .error r →
    step (s.withFetchWord 16 w.toNat) = .refused (.reservedEventWord w)) ∧
  (∀ (s : State) (flag : Bool) (str mag : BitVec 3), str ≠ mag →
    exec (.evPattern flag str mag) s = .refused (.reservedEventWord (Event.pack (.pattern flag str mag)))) ∧
  (∀ (s : State) (index : BitVec 4) (level : Bool), index.toNat = 0 ∨ 5 ≤ index.toNat →
    exec (.evInput index level) s = .refused (.reservedEventWord (Event.pack (.input index level))))

/-! ## One step -/

/-- R36: with `rst` = 0 a step runs the fetched instruction, which is the phase that `phase` names unless a bench word stands on
the channel, and then the environment moves on; and a placed instruction is the one the next step runs. -/
def Obligations.StepRunsTheFetchedInstruction : Prop :=
  (∀ (s : State) (i : Instr), s.inputs.rst = false → s.fetch = .ok i →
    step s = (match exec i s with
      | .next t => .next t.advance
      | .fault f => .fault f
      | .refused r => .refused r)) ∧
  (∀ s : State, s.benchWord = none → s.fetch = .ok (decodePhase s.phase)) ∧
  (∀ (s : State) (w : EventWord), s.benchWord = some w → s.fetch = decode (.event16 w)) ∧
  (∀ (s : State) (nbits w : Nat) (i : Instr), decodeTableWord nbits w = some i →
    (s.withFetchWord nbits w).inputs.rst = false ∧ (s.withFetchWord nbits w).fetch = .ok i)

/-- The model's own (notes/assumptions/3.md and 4.md): between two steps the environment sets the input levels from the
stimulus, or from the free values where it is used up, counts the step and takes a bench word away, and changes nothing else. -/
def Obligations.EnvironmentMovesOnlyTheInputs : Prop :=
  ∀ s : State,
    s.advance = { s with
      inputs := (match s.stimulus with
        | [] => { rst := Config.freeRst s.tick, serIn := Config.freeSerIn s.tick
                  melodyDone := Config.freeMelodyDone s.tick }
        | i :: _ => i)
      stimulus := s.stimulus.tail
      tick := s.tick + 1
      benchWord := none }

/-- R180: a reset edge, whatever the phase. No event is emitted and none is on the channel. What the six registers that R180
leaves unspecified hold is said by the next statement. -/
def Obligations.ResetEdgeFromAnyPhase : Prop :=
  ∀ s : State, s.inputs.rst = true →
    s.outputs.evValid = false ∧
    ∃ t, step s = .next t ∧
      t.prev = 0xFF#8 ∧ t.phase = 0x0#4 ∧ t.loadN = true ∧ t.sck = false ∧ t.aux = false ∧ t.melodyReq = false ∧
      t.events = s.events

/-- The model's own form of R180's "become unspecified" (notes/assumptions/2.md): at a reset edge the six registers without a
reset value take free values of the edge, so nothing they held before survives; and the environment moves on as after any step. -/
def Obligations.ResetEdgeLeavesSixRegistersFree : Prop :=
  ∀ s : State, s.inputs.rst = true →
    ∃ t, step s = .next t ∧
      t.raw = Config.freeRaw s.tick ∧ t.tx = Config.freeTx s.tick ∧ t.mask = Config.freeMask s.tick ∧
      t.bitcnt = Config.freeBitcnt s.tick ∧ t.changed = Config.freeChanged s.tick ∧ t.timer = Config.freeTimer s.tick ∧
      t.inputs = s.advance.inputs ∧ t.stimulus = s.stimulus.tail ∧ t.tick = s.tick + 1 ∧ t.benchWord = none

/-- R38: the reset state has the values the table gives, and the outputs just after reset are as it says. The table's
unspecified registers are not mentioned: `ser_out` is bit 7 of whatever `tx` holds. -/
def Obligations.ResetStateHasTheTabledValues : Prop :=
  State.reset.prev = 0xFF#8 ∧ State.reset.phase = 0x0#4 ∧ State.reset.loadN = true ∧ State.reset.sck = false ∧
  State.reset.aux = false ∧ State.reset.melodyReq = false ∧
  (∀ s : State, s.inputs.rst = false → s.benchWord = none → s.phase = 0x0#4 →
    s.outputs.evValid = true ∧ s.outputs.evWord = 0x0000#16 ∧ s.outputs.enN = false ∧
      s.outputs.serOut = s.tx.getLsbD 7)

/-- R37: the combinational outputs are what the step does. `ser_out` and `en_n` at all times; a step emits at most one event,
never withdraws one, and the channel shows exactly its packing, and 0 when there is none. -/
def Obligations.OutputsShowWhatTheStepEmits : Prop :=
  (∀ s : State, s.outputs.serOut = s.tx.getLsbD 7 ∧ s.outputs.enN = false) ∧
  (∀ s t : State, s.benchWord = none → step s = .next t →
    (s.outputs.evValid = true ∧ ∃ e, t.events = s.events ++ [e] ∧ s.outputs.evWord = e.pack) ∨
    (s.outputs.evValid = false ∧ t.events = s.events ∧ s.outputs.evWord = 0x0000#16)) ∧
  (∀ s : State, s.inputs.rst = false → s.benchWord = none →
    (s.outputs.evValid = true ↔
      s.phase = 0x0#4 ∨ (s.phase = 0x6#4 ∧ s.raw ≠ s.prev) ∨
        (s.phase = 0x7#4 ∧ s.raw &&& s.mask ≠ s.prev &&& s.mask)))

/-- R175: no phase faults or is refused, and in every state without a bench word there is a next state. -/
def Obligations.EveryStepHasANextState : Prop :=
  (∀ (i : Instr) (s : State), i.isPhase = true → ∃ t, exec i s = .next t) ∧
  (∀ s : State, s.benchWord = none → ∃ t, step s = .next t)

/-- R156: the successor of every phase, condition by condition. -/
def Obligations.PhaseTransitionGraph : Prop :=
  ∀ s t : State, s.benchWord = none → step s = .next t →
    (s.inputs.rst = true → t.phase = 0x0#4) ∧
    (s.inputs.rst = false →
      (s.phase = 0x0#4 → t.phase = 0x1#4) ∧
      (s.phase = 0x1#4 → t.phase = 0x2#4) ∧
      (s.phase = 0x2#4 → t.phase = if s.timer = 0 then 0x3#4 else 0x2#4) ∧
      (s.phase = 0x3#4 → t.phase = 0x4#4) ∧
      (s.phase = 0x4#4 → t.phase = 0x5#4) ∧
      (s.phase = 0x5#4 → t.phase = if s.bitcnt = 7#3 then 0x6#4 else 0x4#4) ∧
      (s.phase = 0x6#4 → t.phase = 0x7#4) ∧
      (s.phase = 0x7#4 →
        t.phase = if s.mask ≠ 0x10#8 then 0x7#4 else if s.changed = true then 0x8#4 else 0xE#4) ∧
      (s.phase = 0x8#4 → t.phase = 0x9#4) ∧
      (s.phase = 0x9#4 → t.phase = if s.timer = 0 then 0xA#4 else 0x9#4) ∧
      (s.phase = 0xA#4 → t.phase = 0xB#4) ∧
      (s.phase = 0xB#4 → t.phase = if s.timer = 0 then 0xC#4 else 0xB#4) ∧
      (s.phase = 0xC#4 → t.phase = 0xD#4) ∧
      (s.phase = 0xD#4 → t.phase = if s.inputs.melodyDone = true then 0xE#4 else 0xD#4) ∧
      (s.phase = 0xE#4 → t.phase = 0xF#4) ∧
      (s.phase = 0xF#4 → t.phase = if s.timer = 0 then 0x1#4 else 0xF#4))

/-- R156: every phase is reachable from reset, by some environment. -/
def Obligations.EveryPhaseIsReachable : Prop :=
  ∀ p : PhaseCode, ∃ (stimulus : List Inputs) (n : Nat) (t : State),
    ({ State.reset with stimulus := stimulus } : State).run n = .next t ∧ t.phase = p

/-! ## The phases. Each equation gives the whole next state, so it is the result, the completion and the frame at once. -/

/-- R145. -/
def Obligations.BannerEmitsOnceAndStartsTheFirstCycle : Prop :=
  (∀ s : State, exec .banner s = .next { s with events := s.events ++ [.banner], phase := 0x1#4 }) ∧
  Event.pack .banner = 0x0000#16 ∧
  (∀ s t : State, s.benchWord = none → s.inputs.rst = false → step s = .next t → t.phase ≠ 0x0#4)

/-- R92, with the corner case on what holds on entry. -/
def Obligations.LoadAssertBeginsTheLoadPulse : Prop :=
  (∀ s : State, exec .loadAssert s = .next { s with loadN := false, timer := Config.tLoad, phase := 0x2#4 }) ∧
  (∀ s t : State, s.Inv → step s = .next t → t.phase = 0x1#4 →
    (s.phase = 0x0#4 ∨ s.phase = 0xF#4) ∧ t.loadN = true ∧ t.sck = false)

/-- R94, with the corner case that the step itself still has `load_n` = 0 on the pin. -/
def Obligations.LoadReleaseEndsTheLoadPulse : Prop :=
  (∀ s : State, exec .loadRelease s =
    .next { s with loadN := true, bitcnt := 0#3, tx := 0x00#8, phase := 0x4#4 }) ∧
  (∀ s : State, s.Inv → s.phase = 0x3#4 → s.outputs.loadN = false)

/-- R93, R148, R150, R155: what one execution of each waiting phase does. -/
def Obligations.WaitingPhasesCountDownOrLeave : Prop :=
  ∀ (i : Instr) (q : PhaseCode),
    (i, q) ∈ [(Instr.loadHold, 0x3#4), (.auxHold, 0xA#4), (.auxPause, 0xC#4), (.pollWait, 0x1#4)] →
    ∀ s : State,
      (s.timer = 0 → exec i s = .next { s with phase := q }) ∧
      (s.timer ≠ 0 → exec i s = .next { s with timer := s.timer - 1 })

/-- R29: the reload values, and that a waiting phase entered with reload value `T` executes exactly `T + 1` times, the lines and
every register but `timer` standing still until the last. -/
def Obligations.WaitingPhaseExecutesReloadPlusOneTimes : Prop :=
  (∀ s t : State, exec .loadAssert s = .next t → t.timer = Config.tLoad) ∧
  (∀ s t : State, exec .auxAssert s = .next t → t.timer = Config.tAuxHold) ∧
  (∀ s t : State, exec .auxRelease s = .next t → t.timer = Config.tAuxPause) ∧
  (∀ s t : State, exec .store s = .next t → t.timer = Config.tPoll) ∧
  (∀ (p q : PhaseCode), (p, q) ∈ [(0x2#4, 0x3#4), (0x9#4, 0xA#4), (0xB#4, 0xC#4), (0xF#4, 0x1#4)] →
    ∀ s : State, s.phase = p → s.benchWord = none → NoReset s (s.timer.toNat + 1) →
      (∀ k, k ≤ s.timer.toNat → ∃ u, s.run k = .next u ∧ u.phase = p ∧ u.timer.toNat = s.timer.toNat - k ∧
        u.loadN = s.loadN ∧ u.sck = s.sck ∧ u.aux = s.aux ∧ u.melodyReq = s.melodyReq ∧
        u.raw = s.raw ∧ u.prev = s.prev ∧ u.events = s.events) ∧
      ∃ u, s.run (s.timer.toNat + 1) = .next u ∧ u.phase = q ∧ u.timer = 0 ∧ u.events = s.events)

/-- R96, R97: one execution of each half of a bit. -/
def Obligations.ShiftPhasesMoveOneBit : Prop :=
  (∀ s : State, exec .shiftSample s =
    .next { s with raw := (s.raw <<< 1) ||| (if s.inputs.serIn = true then 1#8 else 0#8), sck := true, phase := 0x5#4 }) ∧
  (∀ s : State, exec .shiftAdvance s =
    .next { s with
      sck := false
      tx := s.tx <<< 1
      bitcnt := s.bitcnt + 1
      phase := if s.bitcnt = 7#3 then 0x6#4 else 0x4#4 })

/-- R99: with the byte presented as R53 says, `read()` takes `19 + T_LOAD` steps, reaches `COMPARE` for the first time then, and
leaves the byte in `raw` and everything the later phases read as it was; and `raw` changes in `SHIFT_SAMPLE` only. -/
def Obligations.ReadReturnsTheLatchedByte : Prop :=
  (∀ (s : State) (L : Byte), s.phase = 0x1#4 → s.benchWord = none → NoReset s (19 + Config.tLoad.toNat) →
    Presents s L (Config.tLoad.toNat + 3) →
    (∃ u, s.run (19 + Config.tLoad.toNat) = .next u ∧ u.phase = 0x6#4 ∧ u.raw = L ∧
      u.prev = s.prev ∧ u.changed = s.changed ∧ u.mask = s.mask ∧ u.events = s.events) ∧
    (∀ k u, k < 19 + Config.tLoad.toNat → s.run k = .next u → u.phase ≠ 0x6#4)) ∧
  (∀ s t : State, s.benchWord = none → s.inputs.rst = false → step s = .next t → s.phase ≠ 0x4#4 → t.raw = s.raw)

/-- R111. -/
def Obligations.CompareReportsAWholeByteDifference : Prop :=
  (∀ s : State, s.raw ≠ s.prev → exec .compare s =
    .next { s with changed := true, mask := 0x80#8, phase := 0x7#4, events := s.events ++ [patternEvent s.raw] }) ∧
  (∀ s : State, s.raw = s.prev → exec .compare s =
    .next { s with changed := false, mask := 0x80#8, phase := 0x7#4 }) ∧
  (∀ s t : State, s.raw = 0x8C#8 → s.prev = 0xFF#8 → exec .compare s = .next t →
    t.events.map Event.pack = s.events.map Event.pack ++ [0x1144#16])

/-- R113: one execution, for a mask of each monitored bit. -/
def Obligations.ScanReportsOneMonitoredBit : Prop :=
  ∀ (s : State) (p : Nat), (p, s.mask) ∈ [(7, 0x80#8), (6, 0x40#8), (5, 0x20#8), (4, 0x10#8)] →
    exec .scan s = .next { s with
      events := if s.raw.getLsbD p ≠ s.prev.getLsbD p
        then s.events ++ [.input (BitVec.ofNat 4 (8 - p)) (s.raw.getLsbD p)] else s.events
      mask := s.mask >>> 1
      phase := if s.mask = 0x10#8 then (if s.changed = true then 0x8#4 else 0xE#4) else s.phase }

/-- R110 steps 1 to 3, R112 to R115: the five steps from `COMPARE` emit exactly the report of `update`, and lead to the side
effect exactly when the byte changed. -/
def Obligations.CompareAndScanEmitTheReport : Prop :=
  ∀ s : State, s.phase = 0x6#4 → s.benchWord = none → NoReset s 5 →
    s.phasesRun 5 = [.compare, .scan, .scan, .scan, .scan] ∧
    ∃ u, s.run 5 = .next u ∧
      u.events = s.events ++ (update s.prev s.raw).events ∧
      u.phase = (if s.raw = s.prev then 0xE#4 else 0x8#4) ∧ u.changed = decide (s.raw ≠ s.prev) ∧
      u.raw = s.raw ∧ u.prev = s.prev ∧ u.mask = 0x08#8

/-- R147, with what holds on entry. -/
def Obligations.AuxAssertRaisesAux : Prop :=
  (∀ s : State, exec .auxAssert s = .next { s with aux := true, timer := Config.tAuxHold, phase := 0x9#4 }) ∧
  (∀ s t : State, s.Inv → step s = .next t → t.phase = 0x8#4 →
    s.phase = 0x7#4 ∧ s.mask = 0x10#8 ∧ s.changed = true ∧ t.aux = false)

/-- R149. -/
def Obligations.AuxReleaseLowersAux : Prop :=
  ∀ s : State, exec .auxRelease s = .next { s with aux := false, timer := Config.tAuxPause, phase := 0xB#4 }

/-- R152. -/
def Obligations.MelodyStartRaisesTheRequest : Prop :=
  ∀ s : State, exec .melodyStart s = .next { s with melodyReq := true, phase := 0xD#4 }

/-- R153: one execution; the wait for as long as `melody_done` stays 0, without bound; and its end. -/
def Obligations.MelodyWaitBlocksUntilDone : Prop :=
  (∀ s : State, s.inputs.melodyDone = true →
    exec .melodyWait s = .next { s with melodyReq := false, phase := 0xE#4 }) ∧
  (∀ s : State, s.inputs.melodyDone = false → exec .melodyWait s = .next s) ∧
  (∀ (s : State) (n : Nat), s.phase = 0xD#4 → s.benchWord = none → NoReset s n →
    (∀ k, k < n → (s.inputsAt k).melodyDone = false) →
    ∃ u, s.run n = .next u ∧ u.phase = 0xD#4 ∧ u.melodyReq = s.melodyReq ∧ u.prev = s.prev ∧ u.raw = s.raw ∧
      u.events = s.events) ∧
  (∀ (s : State) (w : Nat), s.phase = 0xD#4 → s.benchWord = none → NoReset s w → Answers s 0 w →
    ∃ u, s.run w = .next u ∧ u.phase = 0xE#4 ∧ u.melodyReq = false ∧ u.prev = s.prev ∧ u.raw = s.raw ∧
      u.events = s.events)

/-- R116: one execution. -/
def Obligations.StoreOverwritesPrev : Prop :=
  ∀ s : State, exec .store s = .next { s with prev := s.raw, timer := Config.tPoll, phase := 0xF#4 }

/-! ## Event words as instructions -/

/-- R134 to R137: an event word the block can emit puts its event on the channel and changes nothing else. -/
def Obligations.EventWordsDeliverTheirEvent : Prop :=
  (∀ s : State, exec .evBanner s = .next { s with events := s.events ++ [.banner] }) ∧
  (∀ (s : State) (flag : Bool) (v : BitVec 3),
    exec (.evPattern flag v v) s = .next { s with events := s.events ++ [.pattern flag v v] }) ∧
  (∀ (s : State) (index : BitVec 4) (level : Bool), 1 ≤ index.toNat → index.toNat ≤ 4 →
    exec (.evInput index level) s = .next { s with events := s.events ++ [.input index level] })

/-! ## The decoder and the transaction level -/

/-- R131: the closed form, that bits 7 to 4 have no influence, the full table of words, and the two examples (the flag of the
first as conflict C2 settles it). -/
def Obligations.DecodeClosedFormAndTable : Prop :=
  (∀ s : Byte,
    decodeSample s =
      { flag := s.getLsbD 3, str := [s.getLsbD 2, s.getLsbD 1, s.getLsbD 0], mag := s.toNat % 8 }) ∧
  (∀ s t : Byte, s &&& 0x0F#8 = t &&& 0x0F#8 → decodeSample s = decodeSample t) ∧
  ((List.range 16).map (fun n => (patternEvent (BitVec.ofNat 8 n)).pack) =
    [0x1000#16, 0x1011#16, 0x1022#16, 0x1033#16, 0x1044#16, 0x1055#16, 0x1066#16, 0x1077#16,
     0x1100#16, 0x1111#16, 0x1122#16, 0x1133#16, 0x1144#16, 0x1155#16, 0x1166#16, 0x1177#16]) ∧
  decodeSample 0b00001001#8 = { flag := true, str := [false, false, true], mag := 1 } ∧
  decodeSample 0b10001100#8 = { flag := true, str := [true, false, false], mag := 4 }

/-- R72: for every monitored position, the mask's event has index `8 - p` and the new level, and it is due exactly when bit `p`
of the TransitionSet is 1. -/
def Obligations.InputEventNamesIndexAndNewLevel : Prop :=
  ∀ (raw prev : Byte) (p : Nat), 4 ≤ p → p ≤ 7 →
    inputEvent raw (0x01#8 <<< p) = .input (BitVec.ofNat 4 (8 - p)) (raw.getLsbD p) ∧
    bitDiffers raw prev (0x01#8 <<< p) = ((raw ^^^ prev) &&& 0xF0#8).getLsbD p

/-- R115: the numbers of events in closed form, and which positions contribute one. -/
def Obligations.ReportInClosedForm : Prop :=
  ∀ prev s : Byte,
    ((update prev s).events.countP fun e => match e with | .pattern _ _ _ => true | _ => false) =
      (if s ^^^ prev ≠ 0#8 then 1 else 0) ∧
    ((update prev s).events.countP fun e => match e with | .input _ _ => true | _ => false) =
      ((List.range 8).countP fun p => ((s ^^^ prev) &&& 0xF0#8).getLsbD p) ∧
    (∀ p, 4 ≤ p → p ≤ 7 →
      ((∃ level, Event.input (BitVec.ofNat 4 (8 - p)) level ∈ (update prev s).events) ↔
        ((s ^^^ prev) &&& 0xF0#8).getLsbD p = true))

/-- R117: the five properties the source states of `update`, (a) to (e). -/
def Obligations.UpdateProperties : Prop :=
  (∀ prev s : Byte, prev ≠ s →
    ((update prev s).events.countP fun e => match e with | .pattern _ _ _ => true | _ => false) = 1 ∧
    (update prev s).prev = s) ∧
  (∀ s : Byte, (update s s).events = []) ∧
  (∀ (prev : Byte) (p : Nat), 4 ≤ p → p ≤ 7 →
    (update prev (prev ^^^ (0x01#8 <<< p))).events =
      [patternEvent (prev ^^^ (0x01#8 <<< p)), .input (BitVec.ofNat 4 (8 - p)) (!prev.getLsbD p)]) ∧
  (∀ prev x : Byte, x ≠ prev →
    (update prev x).events ≠ [] ∧ (update (update prev x).prev x).events = []) ∧
  (∀ x : Byte, x ≠ 0xFF#8 → (update 0xFF#8 x).events.head? = some (patternEvent x)) ∧
  (update 0xFF#8 0xFF#8).events = [] ∧ (update 0xFF#8 0xFF#8).prev = 0xFF#8

/-! ## Waveforms -/

/-- R95: `load_n` is 0 on the pin for exactly the `T_LOAD + 2` periods after the `LOAD_ASSERT` step. -/
def Obligations.LoadPulseLastsReloadPlusTwoPeriods : Prop :=
  ∀ s : State, s.Inv → s.phase = 0x1#4 → NoReset s (19 + Config.tLoad.toNat) →
    ∀ k, k ≤ 19 + Config.tLoad.toNat →
      ∃ u, s.run k = .next u ∧ (u.outputs.loadN = false ↔ 1 ≤ k ∧ k ≤ Config.tLoad.toNat + 2)

/-- R98: `sck` is high during each `SHIFT_ADVANCE` step and low otherwise, eight periods with one low period between them, none
during the load pulse; and `ser_out` carries the dummy byte's bits, high to low, one a pair. -/
def Obligations.ExchangeHasEightClockPulses : Prop :=
  (∀ s : State, s.Inv → (s.outputs.sck = true ↔ s.phase = 0x5#4) ∧ s.outputs.enN = false) ∧
  (∀ s : State, s.Inv → s.phase = 0x1#4 → NoReset s (19 + Config.tLoad.toNat) →
    ∀ k, k ≤ 19 + Config.tLoad.toNat →
      ∃ u, s.run k = .next u ∧
        (u.outputs.sck = true ↔ ∃ j, j < 8 ∧ k = Config.tLoad.toNat + 3 + 2 * j + 1) ∧
        (∀ j, j < 8 → (k = Config.tLoad.toNat + 3 + 2 * j ∨ k = Config.tLoad.toNat + 3 + 2 * j + 1) →
          u.outputs.serOut = dummyByte.getLsbD (7 - j)))

/-- R151: `aux` is 1 on the pin for exactly the `T_AUX_HOLD + 2` periods after the `AUX_ASSERT` step, then 0 for the
`T_AUX_PAUSE + 1` steps of `AUX_PAUSE` and the `MELODY_START` step, after which the request is up; and `aux` is 1 only in a
cycle with a change. -/
def Obligations.AuxPulseLastsReloadPlusTwoPeriods : Prop :=
  (∀ s : State, s.Inv → s.phase = 0x8#4 →
    NoReset s (5 + Config.tAuxHold.toNat + Config.tAuxPause.toNat) →
    ∀ k, k ≤ 5 + Config.tAuxHold.toNat + Config.tAuxPause.toNat →
      ∃ u, s.run k = .next u ∧
        (u.outputs.aux = true ↔ 1 ≤ k ∧ k ≤ Config.tAuxHold.toNat + 2) ∧
        (u.outputs.melodyReq = true ↔ k = 5 + Config.tAuxHold.toNat + Config.tAuxPause.toNat)) ∧
  (∀ s : State, s.Inv → s.outputs.aux = true → s.changed = true ∧ s.raw ≠ s.prev)

/-! ## The whole machine -/

/-- The invariant holds at reset. -/
def Obligations.InvariantHoldsAtReset : Prop := State.reset.Inv

/-- Every step keeps the invariant, from every state that has it and under every environment, resets among it. -/
def Obligations.StepKeepsTheInvariant : Prop := ∀ s t : State, s.Inv → step s = .next t → t.Inv

/-- R40: at every entry to `LOAD_ASSERT`, `prev` is the sentinel if it comes from the banner and the cycle's sample if it comes
from the poll wait. -/
def Obligations.PrevAtTheStartOfACycle : Prop :=
  ∀ s t : State, s.Inv → step s = .next t → t.phase = 0x1#4 →
    (s.phase = 0x0#4 ∧ t.prev = 0xFF#8) ∨ (s.phase = 0xF#4 ∧ t.prev = t.raw)

/-- R157 and R194 for a sample equal to the previous one: `26 + T_LOAD + T_POLL` steps, no event, no side effect. -/
def Obligations.PollCycleWithoutAChange : Prop :=
  ∀ s : State, s.phase = 0x1#4 → s.benchWord = none →
    NoReset s (26 + Config.tLoad.toNat + Config.tPoll.toNat) → Presents s s.prev (Config.tLoad.toNat + 3) →
    s.phasesRun (26 + Config.tLoad.toNat + Config.tPoll.toNat) = pollPhases false 0 ∧
    ∃ t, s.run (26 + Config.tLoad.toNat + Config.tPoll.toNat) = .next t ∧
      t.phase = 0x1#4 ∧ t.prev = s.prev ∧ t.raw = s.prev ∧ t.events = s.events ∧
      t.aux = s.aux ∧ t.melodyReq = s.melodyReq

/-- R157 and R194 for a sample that differs, with `w` executions of `MELODY_WAIT`: the number of steps, the phases executed, the
events of `update`, and the new `prev`. -/
def Obligations.PollCycleWithAChange : Prop :=
  ∀ (s : State) (L : Byte) (w : Nat), s.phase = 0x1#4 → s.benchWord = none → L ≠ s.prev →
    NoReset s (31 + Config.tLoad.toNat + Config.tPoll.toNat + Config.tAuxHold.toNat + Config.tAuxPause.toNat + w) →
    Presents s L (Config.tLoad.toNat + 3) →
    Answers s (29 + Config.tLoad.toNat + Config.tAuxHold.toNat + Config.tAuxPause.toNat) w →
    s.phasesRun
        (31 + Config.tLoad.toNat + Config.tPoll.toNat + Config.tAuxHold.toNat + Config.tAuxPause.toNat + w) =
      pollPhases true w ∧
    ∃ t, s.run (31 + Config.tLoad.toNat + Config.tPoll.toNat + Config.tAuxHold.toNat + Config.tAuxPause.toNat + w)
        = .next t ∧
      t.phase = 0x1#4 ∧ t.prev = L ∧ t.raw = L ∧ t.events = s.events ++ (update s.prev L).events ∧
      t.aux = false ∧ t.melodyReq = false

/-- R157, its consequence: over any number of consecutive poll cycles the events are the reports of `update`, one after the
other, and `prev` ends as the last sample. -/
def Obligations.ConsecutivePollCyclesEmitTheUpdates : Prop :=
  ∀ (s t : State) (samples : List Byte), s.phase = 0x1#4 → s.benchWord = none → PollsTo s samples t →
    t.phase = 0x1#4 ∧ t.benchWord = none ∧ t.events = s.events ++ updates s.prev samples ∧
      t.prev = lastSample s.prev samples

/-- R181: from reset, the first step emits the banner, the next begins the first cycle, the first `COMPARE` is the step
`20 + T_LOAD` steps after the banner's, and the first report is empty for 0xFF and has only OFF levels otherwise. -/
def Obligations.FirstCycleAfterReset : Prop :=
  (∀ (s : State) (L : Byte), s.Inv → s.phase = 0x0#4 → NoReset s (20 + Config.tLoad.toNat) →
    Presents s L (Config.tLoad.toNat + 4) →
    s.phasesRun (20 + Config.tLoad.toNat) = .banner :: readPhases ∧
    ∃ u, s.run (20 + Config.tLoad.toNat) = .next u ∧ u.phase = 0x6#4 ∧ u.raw = L ∧ u.prev = 0xFF#8 ∧
      u.events = s.events ++ [.banner]) ∧
  (∀ L : Byte, ((update 0xFF#8 L).events = [] ↔ L = 0xFF#8) ∧
    (∀ index level, Event.input index level ∈ (update 0xFF#8 L).events → level = false) ∧
    (∀ p, 4 ≤ p → p ≤ 7 →
      (Event.input (BitVec.ofNat 4 (8 - p)) false ∈ (update 0xFF#8 L).events ↔ L.getLsbD p = false)))

/-- R39 and R41: `prev` is all that carries information from one cycle, or from reset, into the next. Two states at the start of
a cycle or of the banner that agree on `prev`, on what can be seen and on the environment go on agreeing on all of that for
ever, whatever their other registers hold. -/
def Obligations.OnlyPrevCarriesInformation : Prop :=
  ∀ (s t : State) (n : Nat), s.Alike t → s.benchWord = none → s.phase = 0x0#4 ∨ s.phase = 0x1#4 →
    ∃ u v, s.run n = .next u ∧ t.run n = .next v ∧ u.Alike v

/-- R24, its column "written by": each register is written by the listed instructions only, and no instruction writes the
model's own fields. -/
def Obligations.RegistersAreWrittenOnlyByTheirPhases : Prop :=
  ∀ (i : Instr) (s t : State), exec i s = .next t →
    (t.raw ≠ s.raw → i = .shiftSample) ∧
    (t.prev ≠ s.prev → i = .store) ∧
    (t.tx ≠ s.tx → i ∈ [Instr.loadRelease, .shiftAdvance]) ∧
    (t.mask ≠ s.mask → i ∈ [Instr.compare, .scan]) ∧
    (t.phase ≠ s.phase → i.isPhase = true) ∧
    (t.bitcnt ≠ s.bitcnt → i ∈ [Instr.loadRelease, .shiftAdvance]) ∧
    (t.changed ≠ s.changed → i = .compare) ∧
    (t.timer ≠ s.timer → i ∈ [Instr.loadAssert, .auxAssert, .auxRelease, .store, .loadHold, .auxHold, .auxPause,
      .pollWait]) ∧
    (t.loadN ≠ s.loadN → i ∈ [Instr.loadAssert, .loadRelease]) ∧
    (t.sck ≠ s.sck → i ∈ [Instr.shiftSample, .shiftAdvance]) ∧
    (t.aux ≠ s.aux → i ∈ [Instr.auxAssert, .auxRelease]) ∧
    (t.melodyReq ≠ s.melodyReq → i ∈ [Instr.melodyStart, .melodyWait]) ∧
    (t.events ≠ s.events → i ∈ [Instr.banner, .compare, .scan] ∨ i.isPhase = false) ∧
    t.inputs = s.inputs ∧ t.stimulus = s.stimulus ∧ t.tick = s.tick ∧ t.benchWord = s.benchWord

/-- R24, its column "read by", and R167: an instruction not listed does the same whatever the register or the input holds, and
leaves it so. (`STORE` writes `prev` and the loading phases write theirs without reading them.) -/
def Obligations.RegistersAndInputsAreReadOnlyWhereListed : Prop :=
  ∀ (i : Instr) (s t : State), exec i s = .next t →
    (i ∉ [Instr.shiftSample, .compare, .scan, .store] →
      ∀ v, exec i { s with raw := v } = .next { t with raw := v }) ∧
    (i ∉ [Instr.compare, .scan, .store] → ∀ v, exec i { s with prev := v } = .next { t with prev := v }) ∧
    (i = .store → ∀ v, exec i { s with prev := v } = .next t) ∧
    (i ∉ [Instr.loadRelease, .shiftAdvance] → ∀ v, exec i { s with tx := v } = .next { t with tx := v }) ∧
    (i ∉ [Instr.compare, .scan] → ∀ v, exec i { s with mask := v } = .next { t with mask := v }) ∧
    (i ∉ [Instr.loadRelease, .shiftAdvance] → ∀ v, exec i { s with bitcnt := v } = .next { t with bitcnt := v }) ∧
    (i ∉ [Instr.compare, .scan] → ∀ v, exec i { s with changed := v } = .next { t with changed := v }) ∧
    (i = .scan → s.mask ≠ 0x10#8 → ∀ v, exec i { s with changed := v } = .next { t with changed := v }) ∧
    (i ∉ [Instr.loadAssert, .auxAssert, .auxRelease, .store, .loadHold, .auxHold, .auxPause, .pollWait] →
      ∀ v, exec i { s with timer := v } = .next { t with timer := v }) ∧
    (i ∉ [Instr.loadAssert, .loadRelease] → ∀ b, exec i { s with loadN := b } = .next { t with loadN := b }) ∧
    (i ∉ [Instr.shiftSample, .shiftAdvance] → ∀ b, exec i { s with sck := b } = .next { t with sck := b }) ∧
    (i ∉ [Instr.auxAssert, .auxRelease] → ∀ b, exec i { s with aux := b } = .next { t with aux := b }) ∧
    (i ∉ [Instr.melodyStart, .melodyWait] → ∀ b, exec i { s with melodyReq := b } = .next { t with melodyReq := b }) ∧
    (i ≠ .shiftSample → ∀ b, exec i { s with inputs := { s.inputs with serIn := b } } =
      .next { t with inputs := { s.inputs with serIn := b } }) ∧
    (i ≠ .melodyWait → ∀ b, exec i { s with inputs := { s.inputs with melodyDone := b } } =
      .next { t with inputs := { s.inputs with melodyDone := b } })

/-! ## The informative environment -/

/-- R52: what is latched while the inputs stand still is their value, and a byte that is latched mixes levels the inputs had. -/
def Obligations.ConstantInputsAreLatchedAsTheyAre : Prop :=
  ∀ (during : List Byte) (v L : Byte), during ≠ [] → (∀ x, x ∈ during → x = v) → (Latches during L ↔ L = v)

/-- 20_memory.md section 7: the reference model of the external register meets R52 and R53. After a pulse it holds the levels of
the pulse's last step; loaded with `L`, it shows `L[7 - k]` after `k` rising edges of the bit clock, whatever comes in at its
own serial input. -/
def Obligations.ReferenceRegisterPresentsTheLatchedByte : Prop :=
  (∀ (r : ExtReg) (during : List Byte) (L : Byte),
    (r.afterPulse (during ++ [L])).sr = L ∧ Latches (during ++ [L]) L) ∧
  (∀ (L : Byte) (ds : List Bool), ds.length < 8 →
    (({ sr := L } : ExtReg).afterEdges ds).serIn = L.getLsbD (7 - ds.length))
end

