-- ==== Sys2Proof/Laws/Decode.lean ====
section
/-! SUPPORT. The encodings' small lemmas: the number behind each phase name, so that a proof sees codes as numbers, and which
phase each code decodes to. -/

namespace Sys2Proof

@[simp] theorem Phase.banner_code : Phase.banner = 0x0#4 := rfl
@[simp] theorem Phase.loadAssert_code : Phase.loadAssert = 0x1#4 := rfl
@[simp] theorem Phase.loadHold_code : Phase.loadHold = 0x2#4 := rfl
@[simp] theorem Phase.loadRelease_code : Phase.loadRelease = 0x3#4 := rfl
@[simp] theorem Phase.shiftSample_code : Phase.shiftSample = 0x4#4 := rfl
@[simp] theorem Phase.shiftAdvance_code : Phase.shiftAdvance = 0x5#4 := rfl
@[simp] theorem Phase.compare_code : Phase.compare = 0x6#4 := rfl
@[simp] theorem Phase.scan_code : Phase.scan = 0x7#4 := rfl
@[simp] theorem Phase.auxAssert_code : Phase.auxAssert = 0x8#4 := rfl
@[simp] theorem Phase.auxHold_code : Phase.auxHold = 0x9#4 := rfl
@[simp] theorem Phase.auxRelease_code : Phase.auxRelease = 0xA#4 := rfl
@[simp] theorem Phase.auxPause_code : Phase.auxPause = 0xB#4 := rfl
@[simp] theorem Phase.melodyStart_code : Phase.melodyStart = 0xC#4 := rfl
@[simp] theorem Phase.melodyWait_code : Phase.melodyWait = 0xD#4 := rfl
@[simp] theorem Phase.store_code : Phase.store = 0xE#4 := rfl
@[simp] theorem Phase.pollWait_code : Phase.pollWait = 0xF#4 := rfl

@[simp] theorem decodePhase_banner : decodePhase 0x0#4 = .banner := rfl
@[simp] theorem decodePhase_loadAssert : decodePhase 0x1#4 = .loadAssert := rfl
@[simp] theorem decodePhase_loadHold : decodePhase 0x2#4 = .loadHold := rfl
@[simp] theorem decodePhase_loadRelease : decodePhase 0x3#4 = .loadRelease := rfl
@[simp] theorem decodePhase_shiftSample : decodePhase 0x4#4 = .shiftSample := rfl
@[simp] theorem decodePhase_shiftAdvance : decodePhase 0x5#4 = .shiftAdvance := rfl
@[simp] theorem decodePhase_compare : decodePhase 0x6#4 = .compare := rfl
@[simp] theorem decodePhase_scan : decodePhase 0x7#4 = .scan := rfl
@[simp] theorem decodePhase_auxAssert : decodePhase 0x8#4 = .auxAssert := rfl
@[simp] theorem decodePhase_auxHold : decodePhase 0x9#4 = .auxHold := rfl
@[simp] theorem decodePhase_auxRelease : decodePhase 0xA#4 = .auxRelease := rfl
@[simp] theorem decodePhase_auxPause : decodePhase 0xB#4 = .auxPause := rfl
@[simp] theorem decodePhase_melodyStart : decodePhase 0xC#4 = .melodyStart := rfl
@[simp] theorem decodePhase_melodyWait : decodePhase 0xD#4 = .melodyWait := rfl
@[simp] theorem decodePhase_store : decodePhase 0xE#4 = .store := rfl
@[simp] theorem decodePhase_pollWait : decodePhase 0xF#4 = .pollWait := rfl

/-- A phase code is one of the sixteen. -/
theorem phaseCode_cases (p : PhaseCode) :
    p = 0x0#4 ∨ p = 0x1#4 ∨ p = 0x2#4 ∨ p = 0x3#4 ∨ p = 0x4#4 ∨ p = 0x5#4 ∨ p = 0x6#4 ∨ p = 0x7#4 ∨
    p = 0x8#4 ∨ p = 0x9#4 ∨ p = 0xA#4 ∨ p = 0xB#4 ∨ p = 0xC#4 ∨ p = 0xD#4 ∨ p = 0xE#4 ∨ p = 0xF#4 := by
  revert p; decide

/-- A code of the phase register is a phase. -/
@[simp] theorem decodePhase_isPhase (c : PhaseCode) : (decodePhase c).isPhase = true := by
  revert c; decide

end Sys2Proof
end

