-- ==== Sys2Proof/Laws/State.lean ====
section
/-! SUPPORT. What each update of the state leaves in each field: one lemma per field per update. -/

namespace Sys2Proof.Machine

variable (s : State)

@[simp] theorem State.setRaw_raw (v : Byte) : (s.setRaw v).raw = v := rfl
@[simp] theorem State.setRaw_prev (v : Byte) : (s.setRaw v).prev = s.prev := rfl
@[simp] theorem State.setRaw_tx (v : Byte) : (s.setRaw v).tx = s.tx := rfl
@[simp] theorem State.setRaw_mask (v : Byte) : (s.setRaw v).mask = s.mask := rfl
@[simp] theorem State.setRaw_phase (v : Byte) : (s.setRaw v).phase = s.phase := rfl
@[simp] theorem State.setRaw_bitcnt (v : Byte) : (s.setRaw v).bitcnt = s.bitcnt := rfl
@[simp] theorem State.setRaw_changed (v : Byte) : (s.setRaw v).changed = s.changed := rfl
@[simp] theorem State.setRaw_timer (v : Byte) : (s.setRaw v).timer = s.timer := rfl
@[simp] theorem State.setRaw_loadN (v : Byte) : (s.setRaw v).loadN = s.loadN := rfl
@[simp] theorem State.setRaw_sck (v : Byte) : (s.setRaw v).sck = s.sck := rfl
@[simp] theorem State.setRaw_aux (v : Byte) : (s.setRaw v).aux = s.aux := rfl
@[simp] theorem State.setRaw_melodyReq (v : Byte) : (s.setRaw v).melodyReq = s.melodyReq := rfl
@[simp] theorem State.setRaw_events (v : Byte) : (s.setRaw v).events = s.events := rfl
@[simp] theorem State.setRaw_inputs (v : Byte) : (s.setRaw v).inputs = s.inputs := rfl
@[simp] theorem State.setRaw_stimulus (v : Byte) : (s.setRaw v).stimulus = s.stimulus := rfl
@[simp] theorem State.setRaw_tick (v : Byte) : (s.setRaw v).tick = s.tick := rfl
@[simp] theorem State.setRaw_benchWord (v : Byte) : (s.setRaw v).benchWord = s.benchWord := rfl

@[simp] theorem State.setPrev_raw (v : Byte) : (s.setPrev v).raw = s.raw := rfl
@[simp] theorem State.setPrev_prev (v : Byte) : (s.setPrev v).prev = v := rfl
@[simp] theorem State.setPrev_tx (v : Byte) : (s.setPrev v).tx = s.tx := rfl
@[simp] theorem State.setPrev_mask (v : Byte) : (s.setPrev v).mask = s.mask := rfl
@[simp] theorem State.setPrev_phase (v : Byte) : (s.setPrev v).phase = s.phase := rfl
@[simp] theorem State.setPrev_bitcnt (v : Byte) : (s.setPrev v).bitcnt = s.bitcnt := rfl
@[simp] theorem State.setPrev_changed (v : Byte) : (s.setPrev v).changed = s.changed := rfl
@[simp] theorem State.setPrev_timer (v : Byte) : (s.setPrev v).timer = s.timer := rfl
@[simp] theorem State.setPrev_loadN (v : Byte) : (s.setPrev v).loadN = s.loadN := rfl
@[simp] theorem State.setPrev_sck (v : Byte) : (s.setPrev v).sck = s.sck := rfl
@[simp] theorem State.setPrev_aux (v : Byte) : (s.setPrev v).aux = s.aux := rfl
@[simp] theorem State.setPrev_melodyReq (v : Byte) : (s.setPrev v).melodyReq = s.melodyReq := rfl
@[simp] theorem State.setPrev_events (v : Byte) : (s.setPrev v).events = s.events := rfl
@[simp] theorem State.setPrev_inputs (v : Byte) : (s.setPrev v).inputs = s.inputs := rfl
@[simp] theorem State.setPrev_stimulus (v : Byte) : (s.setPrev v).stimulus = s.stimulus := rfl
@[simp] theorem State.setPrev_tick (v : Byte) : (s.setPrev v).tick = s.tick := rfl
@[simp] theorem State.setPrev_benchWord (v : Byte) : (s.setPrev v).benchWord = s.benchWord := rfl

@[simp] theorem State.setTx_raw (v : Byte) : (s.setTx v).raw = s.raw := rfl
@[simp] theorem State.setTx_prev (v : Byte) : (s.setTx v).prev = s.prev := rfl
@[simp] theorem State.setTx_tx (v : Byte) : (s.setTx v).tx = v := rfl
@[simp] theorem State.setTx_mask (v : Byte) : (s.setTx v).mask = s.mask := rfl
@[simp] theorem State.setTx_phase (v : Byte) : (s.setTx v).phase = s.phase := rfl
@[simp] theorem State.setTx_bitcnt (v : Byte) : (s.setTx v).bitcnt = s.bitcnt := rfl
@[simp] theorem State.setTx_changed (v : Byte) : (s.setTx v).changed = s.changed := rfl
@[simp] theorem State.setTx_timer (v : Byte) : (s.setTx v).timer = s.timer := rfl
@[simp] theorem State.setTx_loadN (v : Byte) : (s.setTx v).loadN = s.loadN := rfl
@[simp] theorem State.setTx_sck (v : Byte) : (s.setTx v).sck = s.sck := rfl
@[simp] theorem State.setTx_aux (v : Byte) : (s.setTx v).aux = s.aux := rfl
@[simp] theorem State.setTx_melodyReq (v : Byte) : (s.setTx v).melodyReq = s.melodyReq := rfl
@[simp] theorem State.setTx_events (v : Byte) : (s.setTx v).events = s.events := rfl
@[simp] theorem State.setTx_inputs (v : Byte) : (s.setTx v).inputs = s.inputs := rfl
@[simp] theorem State.setTx_stimulus (v : Byte) : (s.setTx v).stimulus = s.stimulus := rfl
@[simp] theorem State.setTx_tick (v : Byte) : (s.setTx v).tick = s.tick := rfl
@[simp] theorem State.setTx_benchWord (v : Byte) : (s.setTx v).benchWord = s.benchWord := rfl

@[simp] theorem State.setMask_raw (v : Byte) : (s.setMask v).raw = s.raw := rfl
@[simp] theorem State.setMask_prev (v : Byte) : (s.setMask v).prev = s.prev := rfl
@[simp] theorem State.setMask_tx (v : Byte) : (s.setMask v).tx = s.tx := rfl
@[simp] theorem State.setMask_mask (v : Byte) : (s.setMask v).mask = v := rfl
@[simp] theorem State.setMask_phase (v : Byte) : (s.setMask v).phase = s.phase := rfl
@[simp] theorem State.setMask_bitcnt (v : Byte) : (s.setMask v).bitcnt = s.bitcnt := rfl
@[simp] theorem State.setMask_changed (v : Byte) : (s.setMask v).changed = s.changed := rfl
@[simp] theorem State.setMask_timer (v : Byte) : (s.setMask v).timer = s.timer := rfl
@[simp] theorem State.setMask_loadN (v : Byte) : (s.setMask v).loadN = s.loadN := rfl
@[simp] theorem State.setMask_sck (v : Byte) : (s.setMask v).sck = s.sck := rfl
@[simp] theorem State.setMask_aux (v : Byte) : (s.setMask v).aux = s.aux := rfl
@[simp] theorem State.setMask_melodyReq (v : Byte) : (s.setMask v).melodyReq = s.melodyReq := rfl
@[simp] theorem State.setMask_events (v : Byte) : (s.setMask v).events = s.events := rfl
@[simp] theorem State.setMask_inputs (v : Byte) : (s.setMask v).inputs = s.inputs := rfl
@[simp] theorem State.setMask_stimulus (v : Byte) : (s.setMask v).stimulus = s.stimulus := rfl
@[simp] theorem State.setMask_tick (v : Byte) : (s.setMask v).tick = s.tick := rfl
@[simp] theorem State.setMask_benchWord (v : Byte) : (s.setMask v).benchWord = s.benchWord := rfl

@[simp] theorem State.goto_raw (v : PhaseCode) : (s.goto v).raw = s.raw := rfl
@[simp] theorem State.goto_prev (v : PhaseCode) : (s.goto v).prev = s.prev := rfl
@[simp] theorem State.goto_tx (v : PhaseCode) : (s.goto v).tx = s.tx := rfl
@[simp] theorem State.goto_mask (v : PhaseCode) : (s.goto v).mask = s.mask := rfl
@[simp] theorem State.goto_phase (v : PhaseCode) : (s.goto v).phase = v := rfl
@[simp] theorem State.goto_bitcnt (v : PhaseCode) : (s.goto v).bitcnt = s.bitcnt := rfl
@[simp] theorem State.goto_changed (v : PhaseCode) : (s.goto v).changed = s.changed := rfl
@[simp] theorem State.goto_timer (v : PhaseCode) : (s.goto v).timer = s.timer := rfl
@[simp] theorem State.goto_loadN (v : PhaseCode) : (s.goto v).loadN = s.loadN := rfl
@[simp] theorem State.goto_sck (v : PhaseCode) : (s.goto v).sck = s.sck := rfl
@[simp] theorem State.goto_aux (v : PhaseCode) : (s.goto v).aux = s.aux := rfl
@[simp] theorem State.goto_melodyReq (v : PhaseCode) : (s.goto v).melodyReq = s.melodyReq := rfl
@[simp] theorem State.goto_events (v : PhaseCode) : (s.goto v).events = s.events := rfl
@[simp] theorem State.goto_inputs (v : PhaseCode) : (s.goto v).inputs = s.inputs := rfl
@[simp] theorem State.goto_stimulus (v : PhaseCode) : (s.goto v).stimulus = s.stimulus := rfl
@[simp] theorem State.goto_tick (v : PhaseCode) : (s.goto v).tick = s.tick := rfl
@[simp] theorem State.goto_benchWord (v : PhaseCode) : (s.goto v).benchWord = s.benchWord := rfl

@[simp] theorem State.setBitcnt_raw (v : BitVec 3) : (s.setBitcnt v).raw = s.raw := rfl
@[simp] theorem State.setBitcnt_prev (v : BitVec 3) : (s.setBitcnt v).prev = s.prev := rfl
@[simp] theorem State.setBitcnt_tx (v : BitVec 3) : (s.setBitcnt v).tx = s.tx := rfl
@[simp] theorem State.setBitcnt_mask (v : BitVec 3) : (s.setBitcnt v).mask = s.mask := rfl
@[simp] theorem State.setBitcnt_phase (v : BitVec 3) : (s.setBitcnt v).phase = s.phase := rfl
@[simp] theorem State.setBitcnt_bitcnt (v : BitVec 3) : (s.setBitcnt v).bitcnt = v := rfl
@[simp] theorem State.setBitcnt_changed (v : BitVec 3) : (s.setBitcnt v).changed = s.changed := rfl
@[simp] theorem State.setBitcnt_timer (v : BitVec 3) : (s.setBitcnt v).timer = s.timer := rfl
@[simp] theorem State.setBitcnt_loadN (v : BitVec 3) : (s.setBitcnt v).loadN = s.loadN := rfl
@[simp] theorem State.setBitcnt_sck (v : BitVec 3) : (s.setBitcnt v).sck = s.sck := rfl
@[simp] theorem State.setBitcnt_aux (v : BitVec 3) : (s.setBitcnt v).aux = s.aux := rfl
@[simp] theorem State.setBitcnt_melodyReq (v : BitVec 3) : (s.setBitcnt v).melodyReq = s.melodyReq := rfl
@[simp] theorem State.setBitcnt_events (v : BitVec 3) : (s.setBitcnt v).events = s.events := rfl
@[simp] theorem State.setBitcnt_inputs (v : BitVec 3) : (s.setBitcnt v).inputs = s.inputs := rfl
@[simp] theorem State.setBitcnt_stimulus (v : BitVec 3) : (s.setBitcnt v).stimulus = s.stimulus := rfl
@[simp] theorem State.setBitcnt_tick (v : BitVec 3) : (s.setBitcnt v).tick = s.tick := rfl
@[simp] theorem State.setBitcnt_benchWord (v : BitVec 3) : (s.setBitcnt v).benchWord = s.benchWord := rfl

@[simp] theorem State.setChanged_raw (v : Bool) : (s.setChanged v).raw = s.raw := rfl
@[simp] theorem State.setChanged_prev (v : Bool) : (s.setChanged v).prev = s.prev := rfl
@[simp] theorem State.setChanged_tx (v : Bool) : (s.setChanged v).tx = s.tx := rfl
@[simp] theorem State.setChanged_mask (v : Bool) : (s.setChanged v).mask = s.mask := rfl
@[simp] theorem State.setChanged_phase (v : Bool) : (s.setChanged v).phase = s.phase := rfl
@[simp] theorem State.setChanged_bitcnt (v : Bool) : (s.setChanged v).bitcnt = s.bitcnt := rfl
@[simp] theorem State.setChanged_changed (v : Bool) : (s.setChanged v).changed = v := rfl
@[simp] theorem State.setChanged_timer (v : Bool) : (s.setChanged v).timer = s.timer := rfl
@[simp] theorem State.setChanged_loadN (v : Bool) : (s.setChanged v).loadN = s.loadN := rfl
@[simp] theorem State.setChanged_sck (v : Bool) : (s.setChanged v).sck = s.sck := rfl
@[simp] theorem State.setChanged_aux (v : Bool) : (s.setChanged v).aux = s.aux := rfl
@[simp] theorem State.setChanged_melodyReq (v : Bool) : (s.setChanged v).melodyReq = s.melodyReq := rfl
@[simp] theorem State.setChanged_events (v : Bool) : (s.setChanged v).events = s.events := rfl
@[simp] theorem State.setChanged_inputs (v : Bool) : (s.setChanged v).inputs = s.inputs := rfl
@[simp] theorem State.setChanged_stimulus (v : Bool) : (s.setChanged v).stimulus = s.stimulus := rfl
@[simp] theorem State.setChanged_tick (v : Bool) : (s.setChanged v).tick = s.tick := rfl
@[simp] theorem State.setChanged_benchWord (v : Bool) : (s.setChanged v).benchWord = s.benchWord := rfl

@[simp] theorem State.setTimer_raw (v : Config.TimerValue) : (s.setTimer v).raw = s.raw := rfl
@[simp] theorem State.setTimer_prev (v : Config.TimerValue) : (s.setTimer v).prev = s.prev := rfl
@[simp] theorem State.setTimer_tx (v : Config.TimerValue) : (s.setTimer v).tx = s.tx := rfl
@[simp] theorem State.setTimer_mask (v : Config.TimerValue) : (s.setTimer v).mask = s.mask := rfl
@[simp] theorem State.setTimer_phase (v : Config.TimerValue) : (s.setTimer v).phase = s.phase := rfl
@[simp] theorem State.setTimer_bitcnt (v : Config.TimerValue) : (s.setTimer v).bitcnt = s.bitcnt := rfl
@[simp] theorem State.setTimer_changed (v : Config.TimerValue) : (s.setTimer v).changed = s.changed := rfl
@[simp] theorem State.setTimer_timer (v : Config.TimerValue) : (s.setTimer v).timer = v := rfl
@[simp] theorem State.setTimer_loadN (v : Config.TimerValue) : (s.setTimer v).loadN = s.loadN := rfl
@[simp] theorem State.setTimer_sck (v : Config.TimerValue) : (s.setTimer v).sck = s.sck := rfl
@[simp] theorem State.setTimer_aux (v : Config.TimerValue) : (s.setTimer v).aux = s.aux := rfl
@[simp] theorem State.setTimer_melodyReq (v : Config.TimerValue) : (s.setTimer v).melodyReq = s.melodyReq := rfl
@[simp] theorem State.setTimer_events (v : Config.TimerValue) : (s.setTimer v).events = s.events := rfl
@[simp] theorem State.setTimer_inputs (v : Config.TimerValue) : (s.setTimer v).inputs = s.inputs := rfl
@[simp] theorem State.setTimer_stimulus (v : Config.TimerValue) : (s.setTimer v).stimulus = s.stimulus := rfl
@[simp] theorem State.setTimer_tick (v : Config.TimerValue) : (s.setTimer v).tick = s.tick := rfl
@[simp] theorem State.setTimer_benchWord (v : Config.TimerValue) : (s.setTimer v).benchWord = s.benchWord := rfl

@[simp] theorem State.setLoadN_raw (v : Bool) : (s.setLoadN v).raw = s.raw := rfl
@[simp] theorem State.setLoadN_prev (v : Bool) : (s.setLoadN v).prev = s.prev := rfl
@[simp] theorem State.setLoadN_tx (v : Bool) : (s.setLoadN v).tx = s.tx := rfl
@[simp] theorem State.setLoadN_mask (v : Bool) : (s.setLoadN v).mask = s.mask := rfl
@[simp] theorem State.setLoadN_phase (v : Bool) : (s.setLoadN v).phase = s.phase := rfl
@[simp] theorem State.setLoadN_bitcnt (v : Bool) : (s.setLoadN v).bitcnt = s.bitcnt := rfl
@[simp] theorem State.setLoadN_changed (v : Bool) : (s.setLoadN v).changed = s.changed := rfl
@[simp] theorem State.setLoadN_timer (v : Bool) : (s.setLoadN v).timer = s.timer := rfl
@[simp] theorem State.setLoadN_loadN (v : Bool) : (s.setLoadN v).loadN = v := rfl
@[simp] theorem State.setLoadN_sck (v : Bool) : (s.setLoadN v).sck = s.sck := rfl
@[simp] theorem State.setLoadN_aux (v : Bool) : (s.setLoadN v).aux = s.aux := rfl
@[simp] theorem State.setLoadN_melodyReq (v : Bool) : (s.setLoadN v).melodyReq = s.melodyReq := rfl
@[simp] theorem State.setLoadN_events (v : Bool) : (s.setLoadN v).events = s.events := rfl
@[simp] theorem State.setLoadN_inputs (v : Bool) : (s.setLoadN v).inputs = s.inputs := rfl
@[simp] theorem State.setLoadN_stimulus (v : Bool) : (s.setLoadN v).stimulus = s.stimulus := rfl
@[simp] theorem State.setLoadN_tick (v : Bool) : (s.setLoadN v).tick = s.tick := rfl
@[simp] theorem State.setLoadN_benchWord (v : Bool) : (s.setLoadN v).benchWord = s.benchWord := rfl

@[simp] theorem State.setSck_raw (v : Bool) : (s.setSck v).raw = s.raw := rfl
@[simp] theorem State.setSck_prev (v : Bool) : (s.setSck v).prev = s.prev := rfl
@[simp] theorem State.setSck_tx (v : Bool) : (s.setSck v).tx = s.tx := rfl
@[simp] theorem State.setSck_mask (v : Bool) : (s.setSck v).mask = s.mask := rfl
@[simp] theorem State.setSck_phase (v : Bool) : (s.setSck v).phase = s.phase := rfl
@[simp] theorem State.setSck_bitcnt (v : Bool) : (s.setSck v).bitcnt = s.bitcnt := rfl
@[simp] theorem State.setSck_changed (v : Bool) : (s.setSck v).changed = s.changed := rfl
@[simp] theorem State.setSck_timer (v : Bool) : (s.setSck v).timer = s.timer := rfl
@[simp] theorem State.setSck_loadN (v : Bool) : (s.setSck v).loadN = s.loadN := rfl
@[simp] theorem State.setSck_sck (v : Bool) : (s.setSck v).sck = v := rfl
@[simp] theorem State.setSck_aux (v : Bool) : (s.setSck v).aux = s.aux := rfl
@[simp] theorem State.setSck_melodyReq (v : Bool) : (s.setSck v).melodyReq = s.melodyReq := rfl
@[simp] theorem State.setSck_events (v : Bool) : (s.setSck v).events = s.events := rfl
@[simp] theorem State.setSck_inputs (v : Bool) : (s.setSck v).inputs = s.inputs := rfl
@[simp] theorem State.setSck_stimulus (v : Bool) : (s.setSck v).stimulus = s.stimulus := rfl
@[simp] theorem State.setSck_tick (v : Bool) : (s.setSck v).tick = s.tick := rfl
@[simp] theorem State.setSck_benchWord (v : Bool) : (s.setSck v).benchWord = s.benchWord := rfl

@[simp] theorem State.setAux_raw (v : Bool) : (s.setAux v).raw = s.raw := rfl
@[simp] theorem State.setAux_prev (v : Bool) : (s.setAux v).prev = s.prev := rfl
@[simp] theorem State.setAux_tx (v : Bool) : (s.setAux v).tx = s.tx := rfl
@[simp] theorem State.setAux_mask (v : Bool) : (s.setAux v).mask = s.mask := rfl
@[simp] theorem State.setAux_phase (v : Bool) : (s.setAux v).phase = s.phase := rfl
@[simp] theorem State.setAux_bitcnt (v : Bool) : (s.setAux v).bitcnt = s.bitcnt := rfl
@[simp] theorem State.setAux_changed (v : Bool) : (s.setAux v).changed = s.changed := rfl
@[simp] theorem State.setAux_timer (v : Bool) : (s.setAux v).timer = s.timer := rfl
@[simp] theorem State.setAux_loadN (v : Bool) : (s.setAux v).loadN = s.loadN := rfl
@[simp] theorem State.setAux_sck (v : Bool) : (s.setAux v).sck = s.sck := rfl
@[simp] theorem State.setAux_aux (v : Bool) : (s.setAux v).aux = v := rfl
@[simp] theorem State.setAux_melodyReq (v : Bool) : (s.setAux v).melodyReq = s.melodyReq := rfl
@[simp] theorem State.setAux_events (v : Bool) : (s.setAux v).events = s.events := rfl
@[simp] theorem State.setAux_inputs (v : Bool) : (s.setAux v).inputs = s.inputs := rfl
@[simp] theorem State.setAux_stimulus (v : Bool) : (s.setAux v).stimulus = s.stimulus := rfl
@[simp] theorem State.setAux_tick (v : Bool) : (s.setAux v).tick = s.tick := rfl
@[simp] theorem State.setAux_benchWord (v : Bool) : (s.setAux v).benchWord = s.benchWord := rfl

@[simp] theorem State.setMelodyReq_raw (v : Bool) : (s.setMelodyReq v).raw = s.raw := rfl
@[simp] theorem State.setMelodyReq_prev (v : Bool) : (s.setMelodyReq v).prev = s.prev := rfl
@[simp] theorem State.setMelodyReq_tx (v : Bool) : (s.setMelodyReq v).tx = s.tx := rfl
@[simp] theorem State.setMelodyReq_mask (v : Bool) : (s.setMelodyReq v).mask = s.mask := rfl
@[simp] theorem State.setMelodyReq_phase (v : Bool) : (s.setMelodyReq v).phase = s.phase := rfl
@[simp] theorem State.setMelodyReq_bitcnt (v : Bool) : (s.setMelodyReq v).bitcnt = s.bitcnt := rfl
@[simp] theorem State.setMelodyReq_changed (v : Bool) : (s.setMelodyReq v).changed = s.changed := rfl
@[simp] theorem State.setMelodyReq_timer (v : Bool) : (s.setMelodyReq v).timer = s.timer := rfl
@[simp] theorem State.setMelodyReq_loadN (v : Bool) : (s.setMelodyReq v).loadN = s.loadN := rfl
@[simp] theorem State.setMelodyReq_sck (v : Bool) : (s.setMelodyReq v).sck = s.sck := rfl
@[simp] theorem State.setMelodyReq_aux (v : Bool) : (s.setMelodyReq v).aux = s.aux := rfl
@[simp] theorem State.setMelodyReq_melodyReq (v : Bool) : (s.setMelodyReq v).melodyReq = v := rfl
@[simp] theorem State.setMelodyReq_events (v : Bool) : (s.setMelodyReq v).events = s.events := rfl
@[simp] theorem State.setMelodyReq_inputs (v : Bool) : (s.setMelodyReq v).inputs = s.inputs := rfl
@[simp] theorem State.setMelodyReq_stimulus (v : Bool) : (s.setMelodyReq v).stimulus = s.stimulus := rfl
@[simp] theorem State.setMelodyReq_tick (v : Bool) : (s.setMelodyReq v).tick = s.tick := rfl
@[simp] theorem State.setMelodyReq_benchWord (v : Bool) : (s.setMelodyReq v).benchWord = s.benchWord := rfl

@[simp] theorem State.emit_raw (e : Event) : (s.emit e).raw = s.raw := rfl
@[simp] theorem State.emit_prev (e : Event) : (s.emit e).prev = s.prev := rfl
@[simp] theorem State.emit_tx (e : Event) : (s.emit e).tx = s.tx := rfl
@[simp] theorem State.emit_mask (e : Event) : (s.emit e).mask = s.mask := rfl
@[simp] theorem State.emit_phase (e : Event) : (s.emit e).phase = s.phase := rfl
@[simp] theorem State.emit_bitcnt (e : Event) : (s.emit e).bitcnt = s.bitcnt := rfl
@[simp] theorem State.emit_changed (e : Event) : (s.emit e).changed = s.changed := rfl
@[simp] theorem State.emit_timer (e : Event) : (s.emit e).timer = s.timer := rfl
@[simp] theorem State.emit_loadN (e : Event) : (s.emit e).loadN = s.loadN := rfl
@[simp] theorem State.emit_sck (e : Event) : (s.emit e).sck = s.sck := rfl
@[simp] theorem State.emit_aux (e : Event) : (s.emit e).aux = s.aux := rfl
@[simp] theorem State.emit_melodyReq (e : Event) : (s.emit e).melodyReq = s.melodyReq := rfl
@[simp] theorem State.emit_events (e : Event) : (s.emit e).events = s.events ++ [e] := rfl
@[simp] theorem State.emit_inputs (e : Event) : (s.emit e).inputs = s.inputs := rfl
@[simp] theorem State.emit_stimulus (e : Event) : (s.emit e).stimulus = s.stimulus := rfl
@[simp] theorem State.emit_tick (e : Event) : (s.emit e).tick = s.tick := rfl
@[simp] theorem State.emit_benchWord (e : Event) : (s.emit e).benchWord = s.benchWord := rfl

@[simp] theorem State.emitIf_raw (b : Bool) (e : Event) : (s.emitIf b e).raw = s.raw := by
  cases b <;> rfl
@[simp] theorem State.emitIf_prev (b : Bool) (e : Event) : (s.emitIf b e).prev = s.prev := by
  cases b <;> rfl
@[simp] theorem State.emitIf_tx (b : Bool) (e : Event) : (s.emitIf b e).tx = s.tx := by
  cases b <;> rfl
@[simp] theorem State.emitIf_mask (b : Bool) (e : Event) : (s.emitIf b e).mask = s.mask := by
  cases b <;> rfl
@[simp] theorem State.emitIf_phase (b : Bool) (e : Event) : (s.emitIf b e).phase = s.phase := by
  cases b <;> rfl
@[simp] theorem State.emitIf_bitcnt (b : Bool) (e : Event) : (s.emitIf b e).bitcnt = s.bitcnt := by
  cases b <;> rfl
@[simp] theorem State.emitIf_changed (b : Bool) (e : Event) : (s.emitIf b e).changed = s.changed := by
  cases b <;> rfl
@[simp] theorem State.emitIf_timer (b : Bool) (e : Event) : (s.emitIf b e).timer = s.timer := by
  cases b <;> rfl
@[simp] theorem State.emitIf_loadN (b : Bool) (e : Event) : (s.emitIf b e).loadN = s.loadN := by
  cases b <;> rfl
@[simp] theorem State.emitIf_sck (b : Bool) (e : Event) : (s.emitIf b e).sck = s.sck := by
  cases b <;> rfl
@[simp] theorem State.emitIf_aux (b : Bool) (e : Event) : (s.emitIf b e).aux = s.aux := by
  cases b <;> rfl
@[simp] theorem State.emitIf_melodyReq (b : Bool) (e : Event) : (s.emitIf b e).melodyReq = s.melodyReq := by
  cases b <;> rfl
@[simp] theorem State.emitIf_events (b : Bool) (e : Event) : (s.emitIf b e).events = (if b then s.events ++ [e] else s.events) := by
  cases b <;> rfl
@[simp] theorem State.emitIf_inputs (b : Bool) (e : Event) : (s.emitIf b e).inputs = s.inputs := by
  cases b <;> rfl
@[simp] theorem State.emitIf_stimulus (b : Bool) (e : Event) : (s.emitIf b e).stimulus = s.stimulus := by
  cases b <;> rfl
@[simp] theorem State.emitIf_tick (b : Bool) (e : Event) : (s.emitIf b e).tick = s.tick := by
  cases b <;> rfl
@[simp] theorem State.emitIf_benchWord (b : Bool) (e : Event) : (s.emitIf b e).benchWord = s.benchWord := by
  cases b <;> rfl

@[simp] theorem State.resetEdge_raw : s.resetEdge.raw = Config.freeRaw s.tick := rfl
@[simp] theorem State.resetEdge_prev : s.resetEdge.prev = sentinel := rfl
@[simp] theorem State.resetEdge_tx : s.resetEdge.tx = Config.freeTx s.tick := rfl
@[simp] theorem State.resetEdge_mask : s.resetEdge.mask = Config.freeMask s.tick := rfl
@[simp] theorem State.resetEdge_phase : s.resetEdge.phase = Phase.banner := rfl
@[simp] theorem State.resetEdge_bitcnt : s.resetEdge.bitcnt = Config.freeBitcnt s.tick := rfl
@[simp] theorem State.resetEdge_changed : s.resetEdge.changed = Config.freeChanged s.tick := rfl
@[simp] theorem State.resetEdge_timer : s.resetEdge.timer = Config.freeTimer s.tick := rfl
@[simp] theorem State.resetEdge_loadN : s.resetEdge.loadN = true := rfl
@[simp] theorem State.resetEdge_sck : s.resetEdge.sck = false := rfl
@[simp] theorem State.resetEdge_aux : s.resetEdge.aux = false := rfl
@[simp] theorem State.resetEdge_melodyReq : s.resetEdge.melodyReq = false := rfl
@[simp] theorem State.resetEdge_events : s.resetEdge.events = s.events := rfl
@[simp] theorem State.resetEdge_inputs : s.resetEdge.inputs = s.inputs := rfl
@[simp] theorem State.resetEdge_stimulus : s.resetEdge.stimulus = s.stimulus := rfl
@[simp] theorem State.resetEdge_tick : s.resetEdge.tick = s.tick := rfl
@[simp] theorem State.resetEdge_benchWord : s.resetEdge.benchWord = s.benchWord := rfl

@[simp] theorem State.advance_raw : s.advance.raw = s.raw := by
  unfold State.advance; split <;> simp_all
@[simp] theorem State.advance_prev : s.advance.prev = s.prev := by
  unfold State.advance; split <;> simp_all
@[simp] theorem State.advance_tx : s.advance.tx = s.tx := by
  unfold State.advance; split <;> simp_all
@[simp] theorem State.advance_mask : s.advance.mask = s.mask := by
  unfold State.advance; split <;> simp_all
@[simp] theorem State.advance_phase : s.advance.phase = s.phase := by
  unfold State.advance; split <;> simp_all
@[simp] theorem State.advance_bitcnt : s.advance.bitcnt = s.bitcnt := by
  unfold State.advance; split <;> simp_all
@[simp] theorem State.advance_changed : s.advance.changed = s.changed := by
  unfold State.advance; split <;> simp_all
@[simp] theorem State.advance_timer : s.advance.timer = s.timer := by
  unfold State.advance; split <;> simp_all
@[simp] theorem State.advance_loadN : s.advance.loadN = s.loadN := by
  unfold State.advance; split <;> simp_all
@[simp] theorem State.advance_sck : s.advance.sck = s.sck := by
  unfold State.advance; split <;> simp_all
@[simp] theorem State.advance_aux : s.advance.aux = s.aux := by
  unfold State.advance; split <;> simp_all
@[simp] theorem State.advance_melodyReq : s.advance.melodyReq = s.melodyReq := by
  unfold State.advance; split <;> simp_all
@[simp] theorem State.advance_events : s.advance.events = s.events := by
  unfold State.advance; split <;> simp_all
@[simp] theorem State.advance_inputs : s.advance.inputs = s.stimulus.head?.getD (freeInputs s.tick) := by
  unfold State.advance; split <;> simp_all
@[simp] theorem State.advance_stimulus : s.advance.stimulus = s.stimulus.tail := by
  unfold State.advance; split <;> simp_all
@[simp] theorem State.advance_tick : s.advance.tick = s.tick + 1 := by
  unfold State.advance; split <;> simp_all
@[simp] theorem State.advance_benchWord : s.advance.benchWord = none := by
  unfold State.advance; split <;> simp_all

@[simp] theorem State.waitThen_raw (p : PhaseCode) : (s.waitThen p).raw = (s.raw) := by
  unfold State.waitThen; split <;> rfl
@[simp] theorem State.waitThen_prev (p : PhaseCode) : (s.waitThen p).prev = (s.prev) := by
  unfold State.waitThen; split <;> rfl
@[simp] theorem State.waitThen_tx (p : PhaseCode) : (s.waitThen p).tx = (s.tx) := by
  unfold State.waitThen; split <;> rfl
@[simp] theorem State.waitThen_mask (p : PhaseCode) : (s.waitThen p).mask = (s.mask) := by
  unfold State.waitThen; split <;> rfl
@[simp] theorem State.waitThen_phase (p : PhaseCode) : (s.waitThen p).phase = (if s.timer = 0#Config.timerWidth then p else s.phase) := by
  unfold State.waitThen; split <;> rfl
@[simp] theorem State.waitThen_bitcnt (p : PhaseCode) : (s.waitThen p).bitcnt = (s.bitcnt) := by
  unfold State.waitThen; split <;> rfl
@[simp] theorem State.waitThen_changed (p : PhaseCode) : (s.waitThen p).changed = (s.changed) := by
  unfold State.waitThen; split <;> rfl
@[simp] theorem State.waitThen_timer (p : PhaseCode) : (s.waitThen p).timer = (if s.timer = 0#Config.timerWidth then s.timer else s.timer - 1#Config.timerWidth) := by
  unfold State.waitThen; split <;> rfl
@[simp] theorem State.waitThen_loadN (p : PhaseCode) : (s.waitThen p).loadN = (s.loadN) := by
  unfold State.waitThen; split <;> rfl
@[simp] theorem State.waitThen_sck (p : PhaseCode) : (s.waitThen p).sck = (s.sck) := by
  unfold State.waitThen; split <;> rfl
@[simp] theorem State.waitThen_aux (p : PhaseCode) : (s.waitThen p).aux = (s.aux) := by
  unfold State.waitThen; split <;> rfl
@[simp] theorem State.waitThen_melodyReq (p : PhaseCode) : (s.waitThen p).melodyReq = (s.melodyReq) := by
  unfold State.waitThen; split <;> rfl
@[simp] theorem State.waitThen_events (p : PhaseCode) : (s.waitThen p).events = (s.events) := by
  unfold State.waitThen; split <;> rfl
@[simp] theorem State.waitThen_inputs (p : PhaseCode) : (s.waitThen p).inputs = (s.inputs) := by
  unfold State.waitThen; split <;> rfl
@[simp] theorem State.waitThen_stimulus (p : PhaseCode) : (s.waitThen p).stimulus = (s.stimulus) := by
  unfold State.waitThen; split <;> rfl
@[simp] theorem State.waitThen_tick (p : PhaseCode) : (s.waitThen p).tick = (s.tick) := by
  unfold State.waitThen; split <;> rfl
@[simp] theorem State.waitThen_benchWord (p : PhaseCode) : (s.waitThen p).benchWord = (s.benchWord) := by
  unfold State.waitThen; split <;> rfl

/-- Two states with the same fields are the same state. -/
theorem State.ext_fields {s t : State} (raw : s.raw = t.raw) (prev : s.prev = t.prev) (tx : s.tx = t.tx)
    (mask : s.mask = t.mask) (phase : s.phase = t.phase) (bitcnt : s.bitcnt = t.bitcnt)
    (changed : s.changed = t.changed) (timer : s.timer = t.timer) (loadN : s.loadN = t.loadN) (sck : s.sck = t.sck)
    (aux : s.aux = t.aux) (melodyReq : s.melodyReq = t.melodyReq) (events : s.events = t.events)
    (inputs : s.inputs = t.inputs) (stimulus : s.stimulus = t.stimulus) (tick : s.tick = t.tick)
    (benchWord : s.benchWord = t.benchWord) : s = t := by
  cases s; cases t; simp_all

end Sys2Proof.Machine
end

