-- ==== Sys2Proof/Laws/Ops.lean ====
section
/-! SUPPORT. What the shared operations do, said once: the wait, the shifts, the mask's position, the events a phase emits. -/

namespace Sys2Proof.Machine

/-- A wait that reads 0 leaves. -/
theorem State.waitThen_zero (s : State) (p : PhaseCode) (h : s.timer = 0#Config.timerWidth) :
    s.waitThen p = s.goto p := if_pos h

/-- A wait that does not read 0 counts down and stays. -/
theorem State.waitThen_nonzero (s : State) (p : PhaseCode) (h : s.timer ≠ 0#Config.timerWidth) :
    s.waitThen p = s.setTimer (s.timer - 1#Config.timerWidth) := if_neg h

/-- Counting down never underflows (R29). -/
theorem timer_sub_one_toNat (t : Config.TimerValue) (h : t ≠ 0#Config.timerWidth) :
    (t - 1#Config.timerWidth).toNat + 1 = t.toNat := by
  have ht : t.toNat ≠ 0 := fun hz => h (BitVec.eq_of_toNat_eq (by simpa using hz))
  have hlt := t.isLt
  have h1 : (1#Config.timerWidth).toNat = 1 := by
    simp [Config.timerWidth]
  rw [BitVec.toNat_sub, h1]
  have : 2 ^ Config.timerWidth - 1 + t.toNat = 2 ^ Config.timerWidth + (t.toNat - 1) := by omega
  rw [this, Nat.add_mod_left, Nat.mod_eq_of_lt (by omega)]
  omega

/-- A timer is 0 exactly when its number is. -/
theorem timer_eq_zero_iff (t : Config.TimerValue) : t = 0#Config.timerWidth ↔ t.toNat = 0 :=
  ⟨fun h => by simp [h], fun h => BitVec.eq_of_toNat_eq (by simpa using h)⟩

/-- Bit 0 of a shift is the bit that entered. -/
theorem shiftInLow_getLsbD_zero (v : Byte) (b : Bool) : (shiftInLow v b).getLsbD 0 = b := by
  simp [shiftInLow]

/-- Every other bit of a shift is the bit below it before. -/
theorem shiftInLow_getLsbD_succ (v : Byte) (b : Bool) (i : Nat) (h : i < 7) :
    (shiftInLow v b).getLsbD (i + 1) = v.getLsbD i := by
  simp [shiftInLow, h]

/-- `emit` under a condition that fails does nothing. -/
@[simp] theorem State.emitIf_false (s : State) (e : Event) : s.emitIf false e = s := rfl

/-- `emit` under a condition that holds is `emit`. -/
@[simp] theorem State.emitIf_true (s : State) (e : Event) : s.emitIf true e = s.emit e := rfl

@[simp] theorem pos_0x80 : pos 0x80#8 = 7#3 := rfl
@[simp] theorem pos_0x40 : pos 0x40#8 = 6#3 := rfl
@[simp] theorem pos_0x20 : pos 0x20#8 = 5#3 := rfl
@[simp] theorem pos_0x10 : pos 0x10#8 = 4#3 := rfl

/-- The last monitored bit is bit 4 (R113). -/
@[simp] theorem monLastMask_eq : monLastMask = 0x10#8 := by decide

/-- Delivering an event the block can emit puts it on the channel. -/
theorem deliver_emittable (s : State) (e : Event) (h : e.wf = true) : deliver s e = .next (s.emit e) := by
  simp [deliver, h]

/-- Delivering any other is refused. -/
theorem deliver_reserved (s : State) (e : Event) (h : e.wf = false) :
    deliver s e = .refused (.reservedEventWord e.pack) := by
  simp [deliver, h]

/-- A delivery that answers a next state has put its event on the channel. -/
theorem deliver_next {s t : State} {e : Event} (h : deliver s e = .next t) : e.wf = true ∧ t = s.emit e := by
  unfold deliver at h
  split at h
  · exact ⟨‹_›, by simpa using h.symm⟩
  · simp at h

end Sys2Proof.Machine
end

