-- ==== Sys2Proof/Laws/PerInstr.lean ====
section
/-! SUPPORT. Statements about instructions as syntax, one lemma per constructor. -/

namespace Sys2Proof.Laws.Format

/-- An instruction is coded in the format of its kind: a phase in `PHASE4`, an event word in `EVENT16` as its event packed. -/
def Statement (i : Instr) : Prop :=
  match i.event? with
  | none => ∃ c, encode i = .phase4 c
  | some e => encode i = .event16 e.pack

theorem banner : Statement .banner := ⟨_, rfl⟩
theorem loadAssert : Statement .loadAssert := ⟨_, rfl⟩
theorem loadHold : Statement .loadHold := ⟨_, rfl⟩
theorem loadRelease : Statement .loadRelease := ⟨_, rfl⟩
theorem shiftSample : Statement .shiftSample := ⟨_, rfl⟩
theorem shiftAdvance : Statement .shiftAdvance := ⟨_, rfl⟩
theorem compare : Statement .compare := ⟨_, rfl⟩
theorem scan : Statement .scan := ⟨_, rfl⟩
theorem auxAssert : Statement .auxAssert := ⟨_, rfl⟩
theorem auxHold : Statement .auxHold := ⟨_, rfl⟩
theorem auxRelease : Statement .auxRelease := ⟨_, rfl⟩
theorem auxPause : Statement .auxPause := ⟨_, rfl⟩
theorem melodyStart : Statement .melodyStart := ⟨_, rfl⟩
theorem melodyWait : Statement .melodyWait := ⟨_, rfl⟩
theorem store : Statement .store := ⟨_, rfl⟩
theorem pollWait : Statement .pollWait := ⟨_, rfl⟩
theorem evBanner : Statement .evBanner := rfl
theorem evPattern (flag : Bool) (str mag : BitVec 3) : Statement (.evPattern flag str mag) := rfl
theorem evInput (index : BitVec 4) (level : Bool) : Statement (.evInput index level) := rfl

end Sys2Proof.Laws.Format
end

