-- ==== Sys2Proof/Laws/Step.lean ====
section
/-! SUPPORT. The step and the run: what a step can do, said once, and how runs and the input levels compose. -/

namespace Sys2Proof.Machine

/-- The state a phase leads to. Every meaning of a phase answers it (`exec_phase`), so a proof about a phase step needs no
outcome to take apart. -/
def phaseResult (s : State) : Instr → State
  | .banner => (s.emit .banner).goto Phase.loadAssert
  | .loadAssert => ((s.setLoadN false).setTimer Config.tLoad).goto Phase.loadHold
  | .loadHold => s.waitThen Phase.loadRelease
  | .loadRelease => (((s.setLoadN true).setBitcnt 0#3).setTx dummyByte).goto Phase.shiftSample
  | .shiftSample => ((s.setRaw (shiftInLow s.raw s.inputs.serIn)).setSck true).goto Phase.shiftAdvance
  | .shiftAdvance =>
    (((s.setSck false).setTx (shiftInLow s.tx false)).setBitcnt (s.bitcnt + 1#3)).goto
      (if lastBit s.bitcnt then Phase.compare else Phase.shiftSample)
  | .compare =>
    (((s.emitIf (wholeByteDiffers s.raw s.prev) (patternEvent s.raw)).setChanged
      (wholeByteDiffers s.raw s.prev)).setMask monStartMask).goto Phase.scan
  | .scan =>
    ((s.emitIf (bitDiffers s.raw s.prev s.mask) (inputEvent s.raw s.mask)).setMask (s.mask >>> 1)).goto
      (scanSuccessor s)
  | .auxAssert => ((s.setAux true).setTimer Config.tAuxHold).goto Phase.auxHold
  | .auxHold => s.waitThen Phase.auxRelease
  | .auxRelease => ((s.setAux false).setTimer Config.tAuxPause).goto Phase.auxPause
  | .auxPause => s.waitThen Phase.melodyStart
  | .melodyStart => (s.setMelodyReq true).goto Phase.melodyWait
  | .melodyWait => if s.inputs.melodyDone then (s.setMelodyReq false).goto Phase.store else s
  | .store => ((s.setPrev s.raw).setTimer Config.tPoll).goto Phase.pollWait
  | .pollWait => s.waitThen Phase.loadAssert
  | .evBanner => s
  | .evPattern _ _ _ => s
  | .evInput _ _ => s

/-- The inversion lemma of `exec`: a phase leads to its `phaseResult`, an event instruction delivers its event. -/
theorem exec_phase (i : Instr) (s : State) (h : i.isPhase = true) : exec i s = .next (phaseResult s i) := by
  cases i <;> first | rfl | simp [Instr.isPhase, Instr.event?] at h

/-- An event instruction delivers its event. -/
theorem exec_event (i : Instr) (e : Event) (s : State) (h : i.event? = some e) : exec i s = deliver s e := by
  cases i <;> simp [Instr.event?] at h <;> subst h <;> rfl

/-- The step with `rst` = 1. -/
theorem step_of_rst {s : State} (h : s.inputs.rst = true) : step s = .next s.resetEdge.advance := by
  simp [step, h]

/-- The step with `rst` = 0 and no bench word: the phase, then the environment's move. -/
theorem step_of_phase {s : State} (hr : s.inputs.rst = false) (hb : s.benchWord = none) :
    step s = .next (phaseResult s (decodePhase s.phase)).advance := by
  simp [step, hr, State.fetch, hb, exec_phase, thenAdvance]

/-- The inversion lemma of `step` where no bench word stands on the channel: everything a step can do. -/
theorem step_next_cases {s t : State} (hb : s.benchWord = none) (h : step s = .next t) :
    (s.inputs.rst = true ∧ t = s.resetEdge.advance) ∨
      (s.inputs.rst = false ∧ t = (phaseResult s (decodePhase s.phase)).advance) := by
  cases hr : s.inputs.rst
  · exact .inr ⟨rfl, by simpa [step_of_phase hr hb] using h.symm⟩
  · exact .inl ⟨rfl, by simpa [step_of_rst hr] using h.symm⟩

/-! Runs. -/

@[simp] theorem State.run_zero (s : State) : s.run 0 = .next s := rfl

theorem State.run_succ {s t : State} (n : Nat) (h : step s = .next t) : s.run (n + 1) = t.run n := by
  have h' : Sys2Proof.core.step s = .next t := h
  simp only [State.run, Host.Core.run, h']
  rfl

/-- A run whose first step gives no next state gives none. -/
theorem State.run_succ_stuck {s t : State} (n : Nat) (h : ∀ u, step s ≠ .next u) : s.run (n + 1) ≠ .next t := by
  cases hst : step s with
  | next u => exact absurd hst (h u)
  | fault r => exact r.rec
  | refused r =>
    have h' : Sys2Proof.core.step s = .refused r := hst
    simp only [State.run, Host.Core.run, h']
    exact fun hn => by cases hn

/-- A run of `n + 1` steps that answers is a step that answers and a run of `n`. -/
theorem State.run_succ_cases {s t : State} (n : Nat) (h : s.run (n + 1) = .next t) :
    ∃ u, step s = .next u ∧ u.run n = .next t := by
  by_cases hst : ∃ u, step s = .next u
  · obtain ⟨u, hu⟩ := hst
    exact ⟨u, hu, by rw [← h, State.run_succ n hu]⟩
  · exact absurd h (State.run_succ_stuck n fun u hu => hst ⟨u, hu⟩)

/-- A run of a phase step followed by `n` more. -/
theorem State.run_phase {s : State} (n : Nat) (hr : s.inputs.rst = false) (hb : s.benchWord = none) :
    s.run (n + 1) = (phaseResult s (decodePhase s.phase)).advance.run n :=
  State.run_succ n (step_of_phase hr hb)

/-- Runs compose. -/
theorem State.run_add {s t : State} (m n : Nat) (h : s.run m = .next t) : s.run (m + n) = t.run n := by
  induction m generalizing s with
  | zero => simp at h; subst h; simp
  | succ m ih =>
    obtain ⟨u, hst, hu⟩ := State.run_succ_cases m h
    rw [show m + 1 + n = (m + n) + 1 by omega, State.run_succ _ hst]
    exact ih hu

theorem State.history_succ {s t : State} (n : Nat) (h : step s = .next t) : s.history (n + 1) = s :: t.history n := by
  simp [State.history, h]

/-- The states of a run, cut in two. -/
theorem State.history_add {s t : State} (m n : Nat) (h : s.run m = .next t) :
    s.history (m + n) = s.history m ++ t.history n := by
  induction m generalizing s with
  | zero => simp at h; subst h; simp [State.history]
  | succ m ih =>
    obtain ⟨u, hst, hu⟩ := State.run_succ_cases m h
    rw [show m + 1 + n = (m + n) + 1 by omega, State.history_succ _ hst, State.history_succ _ hst, ih hu,
      List.cons_append]

/-- The phases of a run, cut in two. -/
theorem State.phasesRun_add {s t : State} (m n : Nat) (h : s.run m = .next t) :
    s.phasesRun (m + n) = s.phasesRun m ++ t.phasesRun n := by
  simp [State.phasesRun, State.history_add m n h]

/-! Input levels to come. -/

/-- The levels to come depend on `inputs`, `stimulus` and `tick` alone. -/
theorem State.inputsAt_congr {s t : State} (hi : s.inputs = t.inputs) (hs : s.stimulus = t.stimulus)
    (ht : s.tick = t.tick) (n : Nat) : s.inputsAt n = t.inputsAt n := by
  induction n generalizing s t with
  | zero => exact hi
  | succ n ih => exact ih (by simp [hs, ht]) (by simp [hs]) (by simp [ht])

/-- A phase leaves the environment's fields alone. -/
@[simp] theorem phaseResult_environment (s : State) (i : Instr) :
    (phaseResult s i).inputs = s.inputs ∧ (phaseResult s i).stimulus = s.stimulus ∧
      (phaseResult s i).tick = s.tick ∧ (phaseResult s i).benchWord = s.benchWord := by
  cases i <;> simp [phaseResult]
  split <;> simp

/-- After a phase step the levels to come are the old ones, one step on. -/
theorem inputsAt_after_phase (s : State) (i : Instr) (n : Nat) :
    (phaseResult s i).advance.inputsAt n = s.inputsAt (n + 1) := by
  exact State.inputsAt_congr (by simp) (by simp) (by simp) n

/-- The same after a reset edge. -/
theorem inputsAt_after_reset (s : State) (n : Nat) : s.resetEdge.advance.inputsAt n = s.inputsAt (n + 1) :=
  State.inputsAt_congr (by simp) (by simp) (by simp) n

/-- No bench word stands on the channel after a step. -/
theorem step_clears_benchWord {s t : State} (h : step s = .next t) : t.benchWord = none := by
  unfold step thenAdvance at h
  split at h
  · simp at h; subst h; simp
  · split at h
    · split at h <;> simp at h
      subst h; simp
    · simp at h

/-- A free step is a phase step, and what is left of a run without reset is one step shorter. -/
theorem NoReset.head {s : State} {n : Nat} (h : NoReset s (n + 1)) : s.inputs.rst = false := h 0 (by omega)

theorem NoReset.tail {s : State} {n : Nat} (i : Instr) (h : NoReset s (n + 1)) :
    NoReset (phaseResult s i).advance n := fun k hk => by
  rw [inputsAt_after_phase]; exact h (k + 1) (by omega)

theorem NoReset.mono {s : State} {m n : Nat} (h : NoReset s n) (hm : m ≤ n) : NoReset s m :=
  fun k hk => h k (by omega)

/-- The levels given by a stimulus are the ones read. -/
theorem State.inputsAt_of_replicate (s : State) (i : Inputs) (n : Nat) (h0 : s.inputs = i)
    (h : s.stimulus = List.replicate n i) (k : Nat) (hk : k ≤ n) : s.inputsAt k = i := by
  induction k generalizing s n with
  | zero => exact h0
  | succ k ih =>
    cases n with
    | zero => omega
    | succ n =>
      exact ih s.advance n (by simp [h, List.replicate_succ]) (by simp [h, List.replicate_succ]) (by omega)

end Sys2Proof.Machine
end

