-- ==== Sys2Proof/Laws/Run.lean ====
section
/-! SUPPORT. Pieces of a run without reset: what one phase step, a wait, one bit of the exchange and one scan do, in a form that
composes (`Reach.trans`). A proof about a poll cycle chains these and never unfolds the step. -/

namespace Sys2Proof.Machine

/-- The state after one step that executes the phase `phase` names. -/
def State.afterPhase (s : State) : State := (phaseResult s (decodePhase s.phase)).advance

/-- `u` is `n` steps from `s`, the phases `ps` are executed on the way, and the environment has moved on by `n` steps. -/
structure Reach (s : State) (n : Nat) (ps : List Instr) (u : State) : Prop where
  run : s.run n = .next u
  bench : u.benchWord = none
  inputsAt : ∀ k, u.inputsAt k = s.inputsAt (n + k)
  phases : s.phasesRun n = ps

theorem Reach.refl {s : State} (hb : s.benchWord = none) : Reach s 0 [] s := ⟨rfl, hb, fun k => by simp, rfl⟩

theorem Reach.trans {s t u : State} {m n : Nat} {ps qs : List Instr} (h : Reach s m ps t) (h' : Reach t n qs u) :
    Reach s (m + n) (ps ++ qs) u where
  run := by rw [State.run_add m n h.run, h'.run]
  bench := h'.bench
  inputsAt k := by rw [h'.inputsAt, h.inputsAt]; congr 1; omega
  phases := by rw [State.phasesRun_add m n h.run, h.phases, h'.phases]

/-- What is left of a run without reset. -/
theorem Reach.noReset {s u : State} {m n : Nat} {ps : List Instr} (h : Reach s m ps u) (hn : NoReset s (m + n)) :
    NoReset u n := fun k hk => by
  rw [h.inputsAt]; exact hn _ (by omega)

/-- One step. -/
theorem Reach.one {s : State} (hr : s.inputs.rst = false) (hb : s.benchWord = none) :
    Reach s 1 [decodePhase s.phase] s.afterPhase where
  run := by rw [State.run_succ 0 (step_of_phase hr hb)]; rfl
  bench := by simp [State.afterPhase]
  inputsAt k := by rw [State.afterPhase, inputsAt_after_phase]; congr 1; omega
  phases := by simp only [State.phasesRun, State.history]; split <;> rfl

/-- Everything but `phase`, `timer` and the environment is the same: what a wait leaves alone. -/
structure SameButTimer (u s : State) : Prop where
  raw : u.raw = s.raw
  prev : u.prev = s.prev
  tx : u.tx = s.tx
  mask : u.mask = s.mask
  bitcnt : u.bitcnt = s.bitcnt
  changed : u.changed = s.changed
  loadN : u.loadN = s.loadN
  sck : u.sck = s.sck
  aux : u.aux = s.aux
  melodyReq : u.melodyReq = s.melodyReq
  events : u.events = s.events

theorem SameButTimer.trans {u t s : State} (h : SameButTimer u t) (h' : SameButTimer t s) : SameButTimer u s := by
  obtain ⟨a, b, c, d, e, f, g, i, j, k, l⟩ := h
  obtain ⟨a', b', c', d', e', f', g', i', j', k', l'⟩ := h'
  exact ⟨a.trans a', b.trans b', c.trans c', d.trans d', e.trans e', f.trans f', g.trans g', i.trans i', j.trans j',
    k.trans k', l.trans l'⟩

/-- The first `k` steps of a wait stay in it, as long as `timer` lasts. -/
theorem wait_stays {p q : PhaseCode} {w : Instr} (hd : decodePhase p = w) (hw : ∀ s, phaseResult s w = s.waitThen q)
    (k : Nat) (s : State) (hp : s.phase = p) (hb : s.benchWord = none) (hk : k ≤ s.timer.toNat) (hn : NoReset s k) :
    ∃ u, Reach s k (List.replicate k w) u ∧ u.phase = p ∧ u.timer.toNat = s.timer.toNat - k ∧ SameButTimer u s := by
  induction k generalizing s with
  | zero => exact ⟨s, Reach.refl hb, hp, by simp, ⟨rfl, rfl, rfl, rfl, rfl, rfl, rfl, rfl, rfl, rfl, rfl⟩⟩
  | succ k ih =>
    have h0 : s.timer ≠ 0#_ := fun h => by rw [timer_eq_zero_iff] at h; omega
    have ht := timer_sub_one_toNat _ h0
    have r := Reach.one hn.head hb
    have e : s.afterPhase = (s.setTimer (s.timer - 1#_)).advance := by
      rw [State.afterPhase, hp, hd, hw, State.waitThen_nonzero _ _ h0]
    obtain ⟨u, hu, h1, h2, h3⟩ := ih s.afterPhase (by simp [e, hp]) r.bench
      (by simp only [e, State.advance_timer, State.setTimer_timer]; omega)
      (r.noReset (n := k) (by rw [Nat.add_comm]; exact hn))
    refine ⟨u, ?_, h1, ?_, h3.trans (by rw [e]; constructor <;> simp)⟩
    · have := r.trans hu
      rw [hp, hd, Nat.add_comm] at this
      simpa [List.replicate_succ] using this
    · rw [h2, e]
      simp only [State.advance_timer, State.setTimer_timer]
      omega

/-- A whole wait: one execution more than the number in `timer`, and then the next phase. -/
theorem wait_leaves {p q : PhaseCode} {w : Instr} (hd : decodePhase p = w) (hw : ∀ s, phaseResult s w = s.waitThen q)
    (s : State) (hp : s.phase = p) (hb : s.benchWord = none) (hn : NoReset s (s.timer.toNat + 1)) :
    ∃ u, Reach s (s.timer.toNat + 1) (waits w s.timer) u ∧ u.phase = q ∧ u.timer = 0#Config.timerWidth ∧
      SameButTimer u s := by
  obtain ⟨u, hu, h1, h2, h3⟩ := wait_stays hd hw _ s hp hb (Nat.le_refl _) (hn.mono (by omega))
  have h0 : u.timer = 0#_ := by rw [timer_eq_zero_iff]; omega
  have r := Reach.one (hu.noReset hn).head hu.bench
  have e : u.afterPhase = (u.goto q).advance := by rw [State.afterPhase, h1, hd, hw, State.waitThen_zero _ _ h0]
  refine ⟨u.afterPhase, ?_, by simp [e], by simp [e, h0], (by rw [e]; constructor <;> simp : SameButTimer _ u).trans h3⟩
  have := hu.trans r
  rw [h1, hd] at this
  simpa [waits, List.replicate_succ'] using this

/-- One bit of the exchange: two steps. -/
theorem exchange_bit (s : State) (hp : s.phase = 0x4#4) (hb : s.benchWord = none) (hn : NoReset s 2) :
    ∃ u, Reach s 2 [.shiftSample, .shiftAdvance] u ∧ u.raw = shiftInLow s.raw (s.inputsAt 0).serIn ∧
      u.tx = shiftInLow s.tx false ∧ u.bitcnt = s.bitcnt + 1#3 ∧
      u.phase = (if s.bitcnt = 7#3 then 0x6#4 else 0x4#4) ∧ u.sck = false ∧
      u.prev = s.prev ∧ u.mask = s.mask ∧ u.changed = s.changed ∧ u.timer = s.timer ∧ u.loadN = s.loadN ∧
      u.aux = s.aux ∧ u.melodyReq = s.melodyReq ∧ u.events = s.events := by
  have r := Reach.one hn.head hb
  have e : s.afterPhase = (phaseResult s .shiftSample).advance := by rw [State.afterPhase, hp]; rfl
  have hp' : s.afterPhase.phase = 0x5#4 := by rw [e]; simp [phaseResult]
  have r' := Reach.one (r.noReset (n := 1) hn).head r.bench
  have e' : s.afterPhase.afterPhase = (phaseResult s.afterPhase .shiftAdvance).advance := by
    conv_lhs => rw [State.afterPhase, hp']
    rfl
  refine ⟨_, by have := r.trans r'; rw [hp, hp'] at this; simpa using this, ?_⟩
  rw [e', e]
  simp [phaseResult, lastBit, State.inputsAt]

/-- Eight shifts replace the whole byte. -/
theorem shiftInLow_eight (v L : Byte) :
    shiftInLow (shiftInLow (shiftInLow (shiftInLow (shiftInLow (shiftInLow (shiftInLow (shiftInLow v
      (L.getLsbD 7)) (L.getLsbD 6)) (L.getLsbD 5)) (L.getLsbD 4)) (L.getLsbD 3)) (L.getLsbD 2)) (L.getLsbD 1))
      (L.getLsbD 0) = L := by
  apply BitVec.eq_of_getLsbD_eq
  intro i hi
  interval_cases i <;> simp [shiftInLow]

/-- A monitored bit's mask, with its position. -/
def IsMonitored (p : Nat) (m : Byte) : Prop := (p, m) ∈ [(7, 0x80#8), (6, 0x40#8), (5, 0x20#8), (4, 0x10#8)]

/-- What a one-hot mask lets through. -/
theorem IsMonitored.and {p : Nat} {m : Byte} (h : IsMonitored p m) (v : Byte) :
    v &&& m = if v.getLsbD p then m else 0#8 := by
  have h' : p = 7 ∧ m = 0x80#8 ∨ p = 6 ∧ m = 0x40#8 ∨ p = 5 ∧ m = 0x20#8 ∨ p = 4 ∧ m = 0x10#8 := by
    simpa [IsMonitored] using h
  rcases h' with ⟨rfl, rfl⟩ | ⟨rfl, rfl⟩ | ⟨rfl, rfl⟩ | ⟨rfl, rfl⟩ <;> revert v <;> decide

theorem IsMonitored.ne_zero {p : Nat} {m : Byte} (h : IsMonitored p m) : m ≠ 0#8 := by
  have h' : p = 7 ∧ m = 0x80#8 ∨ p = 6 ∧ m = 0x40#8 ∨ p = 5 ∧ m = 0x20#8 ∨ p = 4 ∧ m = 0x10#8 := by
    simpa [IsMonitored] using h
  rcases h' with ⟨rfl, rfl⟩ | ⟨rfl, rfl⟩ | ⟨rfl, rfl⟩ | ⟨rfl, rfl⟩ <;> decide

/-- A scan's test is a test of one bit. -/
theorem IsMonitored.bitDiffers {p : Nat} {m : Byte} (h : IsMonitored p m) (x y : Byte) :
    bitDiffers x y m = decide (x.getLsbD p ≠ y.getLsbD p) := by
  simp only [Machine.bitDiffers, h.and x, h.and y]
  have := h.ne_zero
  cases x.getLsbD p <;> cases y.getLsbD p <;> simp [this, this.symm]

/-- A scan's event names one input and its level. -/
theorem IsMonitored.inputEvent {p : Nat} {m : Byte} (h : IsMonitored p m) (x : Byte) :
    inputEvent x m = .input (BitVec.ofNat 4 (8 - p)) (x.getLsbD p) := by
  have hi : inputIndex m = BitVec.ofNat 4 (8 - p) := by
    have h' : p = 7 ∧ m = 0x80#8 ∨ p = 6 ∧ m = 0x40#8 ∨ p = 5 ∧ m = 0x20#8 ∨ p = 4 ∧ m = 0x10#8 := by
      simpa [IsMonitored] using h
    rcases h' with ⟨rfl, rfl⟩ | ⟨rfl, rfl⟩ | ⟨rfl, rfl⟩ | ⟨rfl, rfl⟩ <;> rfl
  have := h.ne_zero
  simp only [Machine.inputEvent, hi, h.and x]
  cases x.getLsbD p <;> simp [this]

/-- One scan step emits what `update` reports for its position. -/
theorem scan_step (s : State) (p : Nat) (h : IsMonitored p s.mask) (hp : s.phase = 0x7#4) (hb : s.benchWord = none)
    (hn : NoReset s 1) :
    ∃ u, Reach s 1 [.scan] u ∧ u.events = s.events ++ inputReport s.prev s.raw p ∧ u.mask = s.mask >>> 1 ∧
      u.phase = (if s.mask = 0x10#8 then (if s.changed then 0x8#4 else 0xE#4) else 0x7#4) ∧
      u.changed = s.changed ∧ u.raw = s.raw ∧ u.prev = s.prev ∧ u.aux = s.aux ∧ u.melodyReq = s.melodyReq := by
  have r := Reach.one hn.head hb
  have e : s.afterPhase = (phaseResult s .scan).advance := by rw [State.afterPhase, hp]; rfl
  rw [hp] at r
  refine ⟨s.afterPhase, by simpa using r, ?_⟩
  rw [e]
  simp [phaseResult, h.bitDiffers, h.inputEvent, scanSuccessor, lastScan, hp, inputReport]
  split <;> simp

end Sys2Proof.Machine
end

