-- ==== Sys2Proof/Tests/Slice0.lean ====
section
/-! SUPPORT. Tests and witnesses. Every expected result is copied from the spec (the source of each stands beside it), not from
the model. The second half shows, for each statement with hypotheses, a state that meets them all. -/

namespace Sys2Proof.Tests

open Sys2Proof.Machine

/-- The outcome is a next state of which the test holds. -/
def leadsTo (o : Host.Outcome State Fault Refusal) (p : State → Bool) : Bool :=
  match o with
  | .next t => p t
  | .fault _ => false
  | .refused _ => false

/-- The reset state with the sample registers and the phase a test needs. -/
def small (phase : PhaseCode) (raw prev mask : Byte) : State := { State.reset with phase, raw, prev, mask }

/-! ## Well-formedness: what R79 says is never emitted is ill formed. -/

theorem test_wf_phase : Instr.wf .scan = true := by decide
theorem test_wf_pattern : Instr.wf (.evPattern true 4#3 4#3) = true := by decide
theorem test_ill_formed_pattern : Instr.wf (.evPattern true 4#3 5#3) = false := by decide
theorem test_wf_input : Instr.wf (.evInput 4#4 true) = true := by decide
theorem test_ill_formed_index_zero : Instr.wf (.evInput 0#4 true) = false := by decide
theorem test_ill_formed_index_five : Instr.wf (.evInput 5#4 false) = false := by decide

/-! ## Decoding: the words of R74 to R78, written bit by bit. -/

theorem test_decode_reader : [0b0001, 0b0010, 0b0011, 0b0100, 0b0101].map (decodeTableWord 8) =
    [some .loadAssert, some .loadHold, some .loadRelease, some .shiftSample, some .shiftAdvance] := by decide
theorem test_decode_detector : [0b0110, 0b0111, 0b1110].map (decodeTableWord 8) =
    [some .compare, some .scan, some .store] := by decide
theorem test_decode_side_effects : [0b1000, 0b1001, 0b1010, 0b1011, 0b1100, 0b1101].map (decodeTableWord 8) =
    [some .auxAssert, some .auxHold, some .auxRelease, some .auxPause, some .melodyStart, some .melodyWait] := by decide
theorem test_decode_driver : [0b0000, 0b1111].map (decodeTableWord 8) = [some .banner, some .pollWait] := by decide
theorem test_decode_ev_banner : decodeTableWord 16 0b0000000000000000 = some .evBanner := by decide
/-- R135's example: 0x1144 is flag 1, "100", 4. -/
theorem test_decode_ev_pattern : decodeTableWord 16 0b0001000101000100 = some (.evPattern true 4#3 4#3) := by decide
/-- R76: the two 3-bit fields are read each from its own place. -/
theorem test_decode_ev_pattern_fields : decodeTableWord 16 0b0001000000110101 = some (.evPattern false 3#3 5#3) := by
  decide
/-- R136's example: 0x2100 is input 1 OFF. -/
theorem test_decode_ev_input_off : decodeTableWord 16 0b0010000100000000 = some (.evInput 1#4 false) := by decide
/-- Test vector S5: 0x2210 is input 2 ON. -/
theorem test_decode_ev_input_on : decodeTableWord 16 0b0010001000010000 = some (.evInput 2#4 true) := by decide
theorem test_reject_reserved_kind : decode (.event16 0x3000#16) = .error (.reservedKind 3#4) := by decide
theorem test_reject_pattern_zero_bit : decode (.event16 0x1008#16) = .error (.reservedBits 0x1008#16) := by decide
theorem test_reject_input_zero_bit : decode (.event16 0x2120#16) = .error (.reservedBits 0x2120#16) := by decide
theorem test_reject_banner_bits : decode (.event16 0x0001#16) = .error (.reservedBits 0x0001#16) := by decide
theorem test_reject_fifth_phase_bit : decodeTableWord 8 0b10000 = none := by decide
/-- R134's packing of R135's example. -/
theorem test_encode_ev_pattern : encode (.evPattern true 4#3 4#3) = .event16 0x1144#16 := by decide

/-! ## The decoder of a sample (95_test_vectors.md S1, S2; the flag of S1 by conflict C2). -/

theorem test_sample_0x09 : decodeSample 0b00001001#8 = { flag := true, str := [false, false, true], mag := 1 } := by
  decide
theorem test_sample_0x8C : decodeSample 0b10001100#8 = { flag := true, str := [true, false, false], mag := 4 } := by
  decide
/-- R136's console line. -/
theorem test_console : consoleLine? (.input 3#4 false) = some "DIP 3 state: OFF" := by decide
theorem test_bit_text : bitText (decodeSample 0x8C#8).str = "100" := by decide

/-! ## The phases, one step each. -/

/-- R145, R78. -/
theorem test_banner : leadsTo (exec .banner State.reset) (fun t =>
    t.phase == 0x1#4 && t.events.map Event.pack == [0x0000#16]) = true := by decide
/-- R92. -/
theorem test_loadAssert : leadsTo (exec .loadAssert State.reset) (fun t => t.phase == 0x2#4 && t.loadN == false) = true := by
  decide
/-- R93: with `timer` = 0 the wait is over, and the line does not move. -/
theorem test_loadHold_ends : leadsTo (exec .loadHold (small 0x2#4 0 0 0)) (fun t => t.phase == 0x3#4) = true := by
  decide
/-- R94. -/
theorem test_loadRelease : leadsTo (exec .loadRelease { State.reset with loadN := false, tx := 0x5A#8, bitcnt := 5#3 })
    (fun t => t.phase == 0x4#4 && t.loadN && t.tx == 0x00#8 && t.bitcnt == 0#3) = true := by decide
/-- 95_test_vectors.md section 2.1: the stream of 0xA5, third edge: 0x02 and a 1 give 0x05. -/
theorem test_shiftSample : leadsTo (exec .shiftSample { small 0x4#4 0x02 0xFF 0 with
      inputs := { rst := false, serIn := true, melodyDone := false } })
    (fun t => t.raw == 0x05#8 && t.sck && t.phase == 0x5#4) = true := by decide
/-- Section 2.1: old contents do not survive, 0xFF and a 0 give 0xFE. -/
theorem test_shiftSample_drops_bit_7 : leadsTo (exec .shiftSample (small 0x4#4 0xFF 0xFF 0))
    (fun t => t.raw == 0xFE#8) = true := by decide
/-- R97: `bitcnt` reads 7, so the exchange is over and the counter wraps. -/
theorem test_shiftAdvance_last : leadsTo (exec .shiftAdvance { State.reset with bitcnt := 7#3, sck := true, tx := 0xA5#8 })
    (fun t => t.phase == 0x6#4 && t.bitcnt == 0#3 && t.sck == false && t.tx == 0x4A#8) = true := by decide
/-- R97: `bitcnt` reads 6, so one more bit follows. -/
theorem test_shiftAdvance_more : leadsTo (exec .shiftAdvance { State.reset with bitcnt := 6#3 })
    (fun t => t.phase == 0x4#4 && t.bitcnt == 7#3) = true := by decide
/-- Section 2.2, per-step view, step 1. -/
theorem test_compare : leadsTo (exec .compare (small 0x6#4 0xA5 0x5A 0)) (fun t =>
    t.phase == 0x7#4 && t.mask == 0x80#8 && t.changed && t.events.map Event.pack == [0x1055#16]) = true := by decide
/-- Section 2.2, row 16: no change, no event, and `changed` is cleared. -/
theorem test_compare_equal : leadsTo (exec .compare { small 0x6#4 0x12 0x12 0 with changed := true }) (fun t =>
    t.changed == false && t.events == []) = true := by decide
/-- Section 2.2, per-step view, step 3: OFF is reported, and the scan goes on. -/
theorem test_scan : leadsTo (exec .scan (small 0x7#4 0xA5 0x5A 0x40)) (fun t =>
    t.phase == 0x7#4 && t.mask == 0x20#8 && t.events.map Event.pack == [0x2200#16]) = true := by decide
/-- Section 2.2, per-step view, step 5. -/
theorem test_scan_last : leadsTo (exec .scan { small 0x7#4 0xA5 0x5A 0x10 with changed := true }) (fun t =>
    t.phase == 0x8#4 && t.mask == 0x08#8 && t.events.map Event.pack == [0x2400#16]) = true := by decide
/-- R147. -/
theorem test_auxAssert : leadsTo (exec .auxAssert State.reset) (fun t => t.phase == 0x9#4 && t.aux) = true := by decide
/-- R148. -/
theorem test_auxHold_ends : leadsTo (exec .auxHold (small 0x9#4 0 0 0)) (fun t => t.phase == 0xA#4) = true := by
  decide
/-- R149. -/
theorem test_auxRelease : leadsTo (exec .auxRelease { State.reset with aux := true })
    (fun t => t.phase == 0xB#4 && t.aux == false) = true := by decide
/-- R150. -/
theorem test_auxPause_ends : leadsTo (exec .auxPause (small 0xB#4 0 0 0)) (fun t => t.phase == 0xC#4) = true := by
  decide
/-- R152. -/
theorem test_melodyStart : leadsTo (exec .melodyStart State.reset) (fun t => t.phase == 0xD#4 && t.melodyReq) = true := by
  decide
/-- R153: blocked while the answer is 0. -/
theorem test_melodyWait_blocks : leadsTo (exec .melodyWait { small 0xD#4 0 0 0 with melodyReq := true })
    (fun t => t.phase == 0xD#4 && t.melodyReq) = true := by decide
/-- R153: the answer ends it. -/
theorem test_melodyWait_ends : leadsTo (exec .melodyWait { small 0xD#4 0 0 0 with
      melodyReq := true, inputs := { rst := false, serIn := false, melodyDone := true } })
    (fun t => t.phase == 0xE#4 && t.melodyReq == false) = true := by decide
/-- R116; section 2.2, row 19: `prev` 0x10 becomes 0x1F. -/
theorem test_store : leadsTo (exec .store (small 0xE#4 0x1F 0x10 0)) (fun t => t.prev == 0x1F#8 && t.phase == 0xF#4) = true := by
  decide
/-- R155. -/
theorem test_pollWait_ends : leadsTo (exec .pollWait (small 0xF#4 0 0 0)) (fun t => t.phase == 0x1#4) = true := by
  decide

/-- R29: `timer` = 1 is counted down to 0 and the phase stays. -/
theorem test_pollWait_goes_on : exec .pollWait { small 0xF#4 0 0 0 with timer := 1#Config.timerWidth } =
    .next (small 0xF#4 0 0 0) := by
  have h : (1#Config.timerWidth) ≠ 0#Config.timerWidth := by
    intro h
    have h' := congrArg BitVec.toNat h
    simp [Config.timerWidth] at h'
  simp [exec, execPollWait, State.waitThen, State.setTimer, h, small, State.reset]

/-! ## Event words and the step. -/

theorem test_evBanner : leadsTo (step (State.reset.withFetchWord 16 0x0000)) (fun t =>
    t.events == [.banner] && t.phase == 0x0#4 && t.benchWord == none) = true := by decide
theorem test_evPattern : leadsTo (step (State.reset.withFetchWord 16 0x1144)) (fun t =>
    t.events == [.pattern true 4#3 4#3]) = true := by decide
theorem test_evInput : leadsTo (step (State.reset.withFetchWord 16 0x2100)) (fun t =>
    t.events == [.input 1#4 false]) = true := by decide
/-- U12. -/
theorem test_evInput_index_zero : exec (.evInput 0#4 false) State.reset = .refused (.reservedEventWord 0x2000#16) := rfl
/-- R76. -/
theorem test_evPattern_unequal : exec (.evPattern false 1#3 2#3) State.reset = .refused (.reservedEventWord 0x1012#16) := rfl
/-- R136: the step from reset with the code of `LOAD_ASSERT` placed runs it. -/
theorem test_step_placed_phase : leadsTo (step (State.reset.withFetchWord 8 0b0001)) (fun t =>
    t.phase == 0x2#4 && t.loadN == false && t.events == []) = true := by decide
/-- R180: the reset edge wins over every phase. -/
theorem test_step_reset : leadsTo (step { small 0x6#4 0xA5 0x5A 0 with
      inputs := { rst := true, serIn := false, melodyDone := false } })
    (fun t => t.phase == 0x0#4 && t.prev == 0xFF#8 && t.events == []) = true := by decide
/-- Section 2.2, row 13, at the transaction level. -/
theorem test_update_row_13 : ((update 0x5A#8 0xA5#8).events.map Event.pack) =
    [0x1055#16, 0x2110#16, 0x2200#16, 0x2310#16, 0x2400#16] := by decide
/-- Section 2.2, row 19. -/
theorem test_update_row_19 : ((update 0x10#8 0x1F#8).events.map Event.pack) = [0x1177#16] := by decide

/-! ## Witnesses: states that meet the hypotheses of the statements. -/

/-- No reset, a 1 on both lines. -/
def high : Inputs := { rst := false, serIn := true, melodyDone := true }

/-- No reset, a 0 on both lines. -/
def low : Inputs := { rst := false, serIn := false, melodyDone := false }

/-- A state at a phase whose input lines stand still for `n` more steps: at 1 they present the byte 0xFF and answer at once. -/
def steady (phase : PhaseCode) (prev : Byte) (i : Inputs) (n : Nat) : State :=
  { State.reset with phase, prev, inputs := i, stimulus := List.replicate n i }

theorem steady_inputsAt (p : PhaseCode) (prev : Byte) (i : Inputs) (n k : Nat) (h : k ≤ n) :
    (steady p prev i n).inputsAt k = i :=
  State.inputsAt_of_replicate _ i n rfl rfl k h

theorem steady_noReset (p : PhaseCode) (prev : Byte) (i : Inputs) (n k : Nat) (hi : i.rst = false) (h : k ≤ n) :
    NoReset (steady p prev i n) k := fun j hj => by
  rw [steady_inputsAt _ _ _ _ _ (by omega), hi]

theorem steady_presents (p : PhaseCode) (prev : Byte) (n first : Nat) (h : first + 14 ≤ n) :
    Presents (steady p prev high n) 0xFF#8 first := fun k hk => by
  rw [steady_inputsAt _ _ _ _ _ (by omega)]
  interval_cases k <;> rfl

theorem steady_presents_zero (p : PhaseCode) (prev : Byte) (n first : Nat) (h : first + 14 ≤ n) :
    Presents (steady p prev low n) 0x00#8 first := fun k hk => by
  rw [steady_inputsAt _ _ _ _ _ (by omega)]
  interval_cases k <;> rfl

theorem steady_answers (p : PhaseCode) (prev : Byte) (n first : Nat) (h : first ≤ n) :
    Answers (steady p prev high n) first 1 :=
  ⟨by omega, fun k hk => by omega, by rw [steady_inputsAt _ _ _ _ _ (by omega)]; rfl⟩

/-- The invariant at each phase a statement needs it at. -/
theorem inv_banner (i : Inputs) (n : Nat) : (steady 0x0#4 0xFF#8 i n).Inv := by
  constructor <;> simp [steady, State.reset]

theorem inv_loadAssert (i : Inputs) (n : Nat) : (steady 0x1#4 0xFF#8 i n).Inv := by
  constructor <;> simp [steady, State.reset]

theorem inv_loadRelease : ({ steady 0x3#4 0xFF#8 low 0 with loadN := false } : State).Inv := by
  constructor <;> simp [steady, State.reset]

theorem inv_shiftAdvance : ({ steady 0x5#4 0xFF#8 low 0 with sck := true } : State).Inv := by
  constructor <;> simp [steady, State.reset]

/-- Just before the last scan of a cycle with a change. -/
def lastScanState : State := { steady 0x7#4 0xFF#8 low 0 with mask := 0x10#8, changed := true }

theorem inv_lastScan : lastScanState.Inv := by
  constructor <;> simp [lastScanState, steady, State.reset]

theorem inv_auxAssert (n : Nat) : ({ steady 0x8#4 0xFF#8 low n with changed := true } : State).Inv := by
  constructor <;> simp [steady, State.reset]

theorem inv_auxHold : ({ steady 0x9#4 0xFF#8 low 0 with changed := true, aux := true } : State).Inv := by
  constructor <;> simp [steady, State.reset, BitVec.le_def]

/-- At the end of the poll wait. -/
theorem inv_pollWait : (steady 0xF#4 0x00#8 low 0).Inv := by
  constructor <;> simp [steady, State.reset, BitVec.le_def]

/-! Encoding. -/

theorem witness_EventWords_reserved : 3 ≤ (0x3000#16).toNat / 4096 ∧ 3 ≤ (0xFFFF#16).toNat / 4096 := by decide
theorem witness_EncodeOfDecode : decode (.phase4 0xF#4) = .ok .pollWait ∧
    decode (.event16 0x2410#16) = .ok (.evInput 4#4 true) := by decide
theorem witness_Emitted_step : ∃ s t e, s.Inv ∧ step s = .next t ∧ e ∈ t.events ∧ e.wf = true :=
  ⟨steady 0x0#4 0xFF#8 low 0, _, .banner, inv_banner _ _, rfl, by decide, rfl⟩
theorem witness_Reserved_reject : decode (.event16 0x1008#16) = .error (.reservedBits 0x1008#16) := by decide
theorem witness_Reserved_fields : (1#3 ≠ 2#3) ∧ (0#4).toNat = 0 ∧ 5 ≤ (5#4).toNat ∧ 5 ≤ (15#4).toNat := by decide

/-! One step. -/

theorem witness_StepRuns : State.reset.inputs.rst = false ∧ State.reset.fetch = .ok .banner ∧
    State.reset.benchWord = none := ⟨rfl, rfl, rfl⟩
theorem witness_StepRuns_bench : (State.reset.withFetchWord 16 0x1144).benchWord = some 0x1144#16 := rfl
theorem witness_StepRuns_placed : decodeTableWord 8 0xF = some .pollWait ∧
    decodeTableWord 16 0x2F10 = some (.evInput 15#4 true) := by decide
theorem witness_ResetEdge : (small 0x7#4 0xA5 0x5A 0x40).inputs.rst = false ∧
    ({ small 0x7#4 0xA5 0x5A 0x40 with inputs := { rst := true, serIn := true, melodyDone := true } } : State).inputs.rst
      = true := ⟨rfl, rfl⟩
theorem witness_ResetState : State.reset.inputs.rst = false ∧ State.reset.benchWord = none ∧ State.reset.phase = 0x0#4 :=
  ⟨rfl, rfl, rfl⟩
theorem witness_Outputs_event : ∃ t, (small 0x6#4 0xA5 0x5A 0).benchWord = none ∧
    step (small 0x6#4 0xA5 0x5A 0) = .next t ∧ (small 0x6#4 0xA5 0x5A 0).outputs.evValid = true :=
  ⟨_, rfl, rfl, rfl⟩
theorem witness_Outputs_silent : ∃ t, (small 0x7#4 0xA5 0xA5 0x80).benchWord = none ∧
    step (small 0x7#4 0xA5 0xA5 0x80) = .next t ∧ (small 0x7#4 0xA5 0xA5 0x80).outputs.evValid = false :=
  ⟨_, rfl, rfl, rfl⟩
theorem witness_EveryStep : Instr.isPhase .melodyWait = true := rfl
/-- A state at any phase answers a step, with `rst` 0 or 1: every clause of the graph is met. -/
theorem witness_Graph (p : PhaseCode) (r : Bool) : ∃ s t, s.benchWord = none ∧ s.inputs.rst = r ∧ s.phase = p ∧
    step s = .next t := by
  cases r
  · exact ⟨steady p 0xFF#8 low 0, _, rfl, rfl, rfl, step_of_phase rfl rfl⟩
  · exact ⟨steady p 0xFF#8 { low with rst := true } 0, _, rfl, rfl, rfl, step_of_rst rfl⟩

/-! The phases. -/

theorem witness_Banner : ∃ t, State.reset.benchWord = none ∧ State.reset.inputs.rst = false ∧
    step State.reset = .next t := ⟨_, rfl, rfl, rfl⟩
theorem witness_LoadAssert_entry : ∃ s t, s.Inv ∧ step s = .next t ∧ t.phase = 0x1#4 :=
  ⟨steady 0x0#4 0xFF#8 low 0, _, inv_banner _ _, rfl, rfl⟩
theorem witness_LoadAssert_entry_from_poll : ∃ s t, s.Inv ∧ s.phase = 0xF#4 ∧ step s = .next t ∧ t.phase = 0x1#4 :=
  ⟨_, _, inv_pollWait, rfl, step_of_phase rfl rfl, by simp [steady, State.reset, phaseResult, State.waitThen]⟩
theorem witness_LoadRelease : ∃ s : State, s.Inv ∧ s.phase = 0x3#4 := ⟨_, inv_loadRelease, rfl⟩
theorem witness_WaitingPhases_ends : (small 0x2#4 0 0 0).timer = 0 := rfl
theorem witness_WaitingPhases_goes_on :
    ({ State.reset with timer := BitVec.allOnes Config.timerWidth } : State).timer ≠ 0 := by
  intro h
  have h' := congrArg (fun v : Config.TimerValue => v.getLsbD 0) h
  simp [Config.timerWidth] at h'
theorem witness_Wait_reload : ∃ s t, exec .loadAssert s = .next t ∧ ∃ t', exec .auxAssert s = .next t' ∧
    ∃ t'', exec .auxRelease s = .next t'' ∧ ∃ t3, exec .store s = .next t3 :=
  ⟨State.reset, _, rfl, _, rfl, _, rfl, _, rfl⟩
theorem witness_Wait_counts (p : PhaseCode) : ∃ s : State, s.phase = p ∧ s.benchWord = none ∧
    s.timer = Config.tPoll ∧ NoReset s (s.timer.toNat + 1) := by
  refine ⟨{ steady p 0xFF#8 low (Config.tPoll.toNat + 1) with timer := Config.tPoll }, rfl, rfl, rfl, fun k hk => ?_⟩
  rw [State.inputsAt_of_replicate _ low (Config.tPoll.toNat + 1) rfl rfl k (Nat.le_of_lt hk)]
  rfl
theorem witness_Read : ∃ (s : State) (L : Byte), s.phase = 0x1#4 ∧ s.benchWord = none ∧
    NoReset s (19 + Config.tLoad.toNat) ∧ Presents s L (Config.tLoad.toNat + 3) :=
  ⟨steady 0x1#4 0xFF#8 high (19 + Config.tLoad.toNat), 0xFF#8, rfl, rfl,
    steady_noReset _ _ _ _ _ rfl (by omega), steady_presents _ _ _ _ (by omega)⟩
theorem witness_Read_early : ∃ u, (steady 0x1#4 0xFF#8 high 0).run 1 = .next u :=
  ⟨_, State.run_succ 0 (step_of_phase rfl rfl)⟩
theorem witness_Read_raw : ∃ t, State.reset.benchWord = none ∧ State.reset.inputs.rst = false ∧
    step State.reset = .next t ∧ State.reset.phase ≠ 0x4#4 := ⟨_, rfl, rfl, rfl, by decide⟩
theorem witness_Compare : (small 0x6#4 0x8C 0xFF 0).raw ≠ (small 0x6#4 0x8C 0xFF 0).prev ∧
    (small 0x6#4 0x12 0x12 0).raw = (small 0x6#4 0x12 0x12 0).prev := by decide
theorem witness_Compare_example : ∃ t, (small 0x6#4 0x8C 0xFF 0).raw = 0x8C#8 ∧ (small 0x6#4 0x8C 0xFF 0).prev = 0xFF#8 ∧
    exec .compare (small 0x6#4 0x8C 0xFF 0) = .next t := ⟨_, rfl, rfl, rfl⟩
theorem witness_Scan : (7, (small 0x7#4 0xA5 0x5A 0x80).mask) ∈ [(7, 0x80#8), (6, 0x40#8), (5, 0x20#8), (4, 0x10#8)] ∧
    (4, (small 0x7#4 0xA5 0x5A 0x10).mask) ∈ [(7, 0x80#8), (6, 0x40#8), (5, 0x20#8), (4, 0x10#8)] := by decide
theorem witness_CompareAndScan : ∃ s : State, s.phase = 0x6#4 ∧ s.benchWord = none ∧ NoReset s 5 ∧ s.raw ≠ s.prev :=
  ⟨steady 0x6#4 0xFF#8 low 5, rfl, rfl, steady_noReset _ _ _ _ _ rfl (by omega), by decide⟩
theorem witness_AuxAssert_entry : ∃ s t, s.Inv ∧ step s = .next t ∧ t.phase = 0x8#4 :=
  ⟨_, _, inv_lastScan, rfl, rfl⟩
theorem witness_MelodyWait : (steady 0xD#4 0xFF#8 high 0).inputs.melodyDone = true ∧
    (steady 0xD#4 0xFF#8 low 0).inputs.melodyDone = false := ⟨rfl, rfl⟩
theorem witness_MelodyWait_blocks : ∃ (s : State), s.phase = 0xD#4 ∧ s.benchWord = none ∧ NoReset s 3 ∧
    ∀ k, k < 3 → (s.inputsAt k).melodyDone = false :=
  ⟨steady 0xD#4 0xFF#8 low 3, rfl, rfl, steady_noReset _ _ _ _ _ rfl (by omega), fun k hk => by
    rw [steady_inputsAt _ _ _ _ _ (by omega)]; rfl⟩
theorem witness_MelodyWait_ends : ∃ (s : State), s.phase = 0xD#4 ∧ s.benchWord = none ∧ NoReset s 1 ∧ Answers s 0 1 :=
  ⟨steady 0xD#4 0xFF#8 high 1, rfl, rfl, steady_noReset _ _ _ _ _ rfl (by omega), steady_answers _ _ _ _ (by omega)⟩
theorem witness_EventWords : 1 ≤ (1#4).toNat ∧ (1#4).toNat ≤ 4 ∧ 1 ≤ (4#4).toNat ∧ (4#4).toNat ≤ 4 := by decide

/-! The decoder and the transaction level. -/

theorem witness_Decode_high_bits : (0x8C#8 : Byte) &&& 0x0F#8 = 0x4C#8 &&& 0x0F#8 := by decide
theorem witness_Update : (0x10#8 : Byte) ≠ 0x1F#8 ∧ (0x8C#8 : Byte) ≠ 0xFF#8 := by decide

/-! Waveforms. -/

theorem witness_LoadPulse : ∃ s : State, s.Inv ∧ s.phase = 0x1#4 ∧ NoReset s (19 + Config.tLoad.toNat) :=
  ⟨steady 0x1#4 0xFF#8 high (19 + Config.tLoad.toNat), inv_loadAssert _ _, rfl, steady_noReset _ _ _ _ _ rfl (by omega)⟩
theorem witness_Clock : ∃ s : State, s.Inv ∧ s.outputs.sck = true := ⟨_, inv_shiftAdvance, rfl⟩
theorem witness_AuxPulse : ∃ s : State, s.Inv ∧ s.phase = 0x8#4 ∧
    NoReset s (5 + Config.tAuxHold.toNat + Config.tAuxPause.toNat) := by
  refine ⟨_, inv_auxAssert (5 + Config.tAuxHold.toNat + Config.tAuxPause.toNat), rfl, fun k hk => ?_⟩
  rw [State.inputsAt_of_replicate _ low (5 + Config.tAuxHold.toNat + Config.tAuxPause.toNat) rfl rfl k (by omega)]
  rfl
theorem witness_AuxPulse_line : ∃ s : State, s.Inv ∧ s.outputs.aux = true := ⟨_, inv_auxHold, rfl⟩

/-! The whole machine. -/

theorem witness_StepKeepsTheInvariant : ∃ s t, s.Inv ∧ step s = .next t :=
  ⟨_, _, inv_lastScan, rfl⟩
theorem witness_PrevAtTheStart_banner : ∃ s t, s.Inv ∧ step s = .next t ∧ t.phase = 0x1#4 := witness_LoadAssert_entry
theorem witness_PollCycle_quiet : ∃ s : State, s.phase = 0x1#4 ∧ s.benchWord = none ∧
    NoReset s (26 + Config.tLoad.toNat + Config.tPoll.toNat) ∧ Presents s s.prev (Config.tLoad.toNat + 3) :=
  ⟨steady 0x1#4 0xFF#8 high (26 + Config.tLoad.toNat + Config.tPoll.toNat), rfl, rfl,
    steady_noReset _ _ _ _ _ rfl (by omega), steady_presents _ _ _ _ (by omega)⟩
theorem witness_PollCycle_changed : ∃ (s : State) (L : Byte) (w : Nat), s.phase = 0x1#4 ∧ s.benchWord = none ∧
    L ≠ s.prev ∧
    NoReset s (31 + Config.tLoad.toNat + Config.tPoll.toNat + Config.tAuxHold.toNat + Config.tAuxPause.toNat + w) ∧
    Presents s L (Config.tLoad.toNat + 3) ∧
    Answers s (29 + Config.tLoad.toNat + Config.tAuxHold.toNat + Config.tAuxPause.toNat) w :=
  ⟨steady 0x1#4 0x00#8 high
      (32 + Config.tLoad.toNat + Config.tPoll.toNat + Config.tAuxHold.toNat + Config.tAuxPause.toNat), 0xFF#8, 1,
    rfl, rfl, by decide, steady_noReset _ _ _ _ _ rfl (by omega), steady_presents _ _ _ _ (by omega),
    steady_answers _ _ _ _ (by omega)⟩
/-- One quiet poll cycle: a run that answers, so `PollsTo` is met with one sample. -/
theorem witness_ConsecutivePollCycles : ∃ (s t : State), s.phase = 0x1#4 ∧ s.benchWord = none ∧ PollsTo s [0xFF#8] t := by
  have hrun : ∀ (n : Nat) (s : State), s.benchWord = none → ∃ t, s.run n = .next t := by
    intro n
    induction n with
    | zero => exact fun s _ => ⟨s, rfl⟩
    | succ n ih =>
      intro s hb
      have hs : ∃ u, step s = .next u := by
        cases hr : s.inputs.rst
        · exact ⟨_, step_of_phase hr hb⟩
        · exact ⟨_, step_of_rst hr⟩
      obtain ⟨u, hu⟩ := hs
      obtain ⟨t, ht⟩ := ih u (step_clears_benchWord hu)
      exact ⟨t, by rw [State.run_succ n hu, ht]⟩
  obtain ⟨t, ht⟩ := hrun quietCycleSteps (steady 0x1#4 0xFF#8 high quietCycleSteps) rfl
  exact ⟨_, t, rfl, rfl, quietCycleSteps, t,
    ⟨steady_noReset _ _ _ _ _ rfl (by omega),
      steady_presents _ _ _ _ (by simp [firstSampleStep, quietCycleSteps]; omega), .inl ⟨rfl, rfl⟩⟩, ht, rfl⟩
theorem witness_FirstCycle : ∃ (s : State) (L : Byte), s.Inv ∧ s.phase = 0x0#4 ∧
    NoReset s (20 + Config.tLoad.toNat) ∧ Presents s L (Config.tLoad.toNat + 4) :=
  ⟨steady 0x0#4 0xFF#8 low (20 + Config.tLoad.toNat), 0x00#8, inv_banner _ _, rfl,
    steady_noReset _ _ _ _ _ rfl (by omega), steady_presents_zero _ _ _ _ (by omega)⟩
/-- Two states that differ in every register but the ones an observer sees. -/
theorem witness_OnlyPrev : ∃ (s t : State), s.Alike t ∧ s.benchWord = none ∧ s.phase = 0x1#4 ∧ s.raw ≠ t.raw :=
  ⟨steady 0x1#4 0xFF#8 low 0,
    { steady 0x1#4 0xFF#8 low 0 with raw := 0xA5#8, tx := 0x11#8, mask := 0x08#8, bitcnt := 5#3, changed := true },
    by constructor <;> rfl, rfl, rfl, by decide⟩
theorem witness_Writers (i : Instr) (h : i.wf = true) : ∃ t, exec i State.reset = .next t := by
  cases i with
  | evPattern f s m => exact ⟨_, if_pos h⟩
  | evInput i l => exact ⟨_, if_pos h⟩
  | _ => exact ⟨_, rfl⟩
theorem witness_Readers : exec .scan lastScanState ≠ .refused (.notModelled "") ∧
    (small 0x7#4 0xA5 0x5A 0x80).mask ≠ 0x10#8 := ⟨by simp [exec, execScan], by decide⟩
theorem witness_Latches : ([0xA5#8, 0xA5#8] : List Byte) ≠ [] ∧ (∀ x, x ∈ ([0xA5#8, 0xA5#8] : List Byte) → x = 0xA5#8) ∧
    Latches [0xA5#8, 0xA5#8] 0xA5#8 := by
  refine ⟨by simp, by simp, fun i _ => ⟨0xA5#8, by simp, rfl⟩⟩
theorem witness_Reference : ([] : List Bool).length < 8 ∧ [true, false, true, false, true, false, true].length < 8 := by
  decide

end Sys2Proof.Tests
end

section
/-! PROOFS. The statements about the state: the outputs (R37), the values after reset (R38), the waits (R29). -/

namespace Sys2Proof.Machine

/-! What the channel shows and what the step adds to it, each tied to the one event of the phase. -/

/-- The event a phase puts on the channel, if any (R37): what `phaseResult` does to the channel (`phaseResult_events`). -/
def phaseEvent (s : State) : Instr → Option Event
  | .banner => some .banner
  | .compare => if wholeByteDiffers s.raw s.prev then some (patternEvent s.raw) else none
  | .scan => if bitDiffers s.raw s.prev s.mask then some (inputEvent s.raw s.mask) else none
  | _ => none

/-- A phase appends its event to the channel and nothing else. -/
theorem phaseResult_events (s : State) (i : Instr) :
    (phaseResult s i).events = s.events ++ (phaseEvent s i).toList := by
  cases i with
  | compare => cases h : wholeByteDiffers s.raw s.prev <;> simp [phaseResult, phaseEvent, h]
  | scan => cases h : bitDiffers s.raw s.prev s.mask <;> simp [phaseResult, phaseEvent, h]
  | melodyWait => cases h : s.inputs.melodyDone <;> simp [phaseResult, phaseEvent, h]
  | _ => simp [phaseResult, phaseEvent]

@[simp] theorem State.outputs_serOut (s : State) : s.outputs.serOut = s.tx.getLsbD 7 := rfl
@[simp] theorem State.outputs_enN (s : State) : s.outputs.enN = false := rfl
@[simp] theorem State.outputs_evValid (s : State) : s.outputs.evValid = s.offeredWord.isSome := rfl
@[simp] theorem State.outputs_evWord (s : State) : s.outputs.evWord = s.offeredWord.getD 0x0000#16 := rfl

/-- No word is offered during a reset edge (R180). -/
theorem State.offeredWord_of_rst {s : State} (hr : s.inputs.rst = true) : s.offeredWord = none := by
  simp [State.offeredWord, hr]

/-- Without reset and bench word, the word offered is the packing of the phase's event (R37). -/
theorem State.offeredWord_of_phase {s : State} (hr : s.inputs.rst = false) (hb : s.benchWord = none) :
    s.offeredWord = (phaseEvent s (decodePhase s.phase)).map Event.pack := by
  rcases phaseCode_cases s.phase with h | h | h | h | h | h | h | h | h | h | h | h | h | h | h | h <;>
    simp [State.offeredWord, phaseEvent, hr, hb, h, Option.map_if]

/-- The channel shows what the step does: one event is added and its packing offered, or none is. -/
theorem step_emits_offeredWord {s t : State} (hb : s.benchWord = none) (h : step s = .next t) :
    (∃ e, t.events = s.events ++ [e] ∧ s.offeredWord = some e.pack) ∨
      (t.events = s.events ∧ s.offeredWord = none) := by
  obtain ⟨hr, rfl⟩ | ⟨hr, rfl⟩ := step_next_cases hb h
  · exact .inr ⟨by simp, State.offeredWord_of_rst hr⟩
  · rw [State.offeredWord_of_phase hr hb, State.advance_events, phaseResult_events]
    cases phaseEvent s (decodePhase s.phase) with
    | none => simp
    | some e => exact .inl ⟨e, rfl, rfl⟩

/-- When a word is offered, condition by condition (R37): the branches of `offeredWord` are the conditions. -/
theorem State.offeredWord_isSome_iff {s : State} (hr : s.inputs.rst = false) (hb : s.benchWord = none) :
    s.offeredWord.isSome = true ↔
      s.phase = 0x0#4 ∨ (s.phase = 0x6#4 ∧ s.raw ≠ s.prev) ∨
        (s.phase = 0x7#4 ∧ s.raw &&& s.mask ≠ s.prev &&& s.mask) := by
  simp only [State.offeredWord, hr, hb, wholeByteDiffers, bitDiffers, Phase.banner_code, Phase.compare_code,
    Phase.scan_code, decide_eq_true_eq]
  split_ifs <;> simp_all

/-- Settles O12: the channel and the step are both read off the phase's one event. -/
theorem outputsShowWhatTheStepEmits : Obligations.OutputsShowWhatTheStepEmits := by
  refine ⟨fun s => ⟨s.outputs_serOut, s.outputs_enN⟩, fun s t hb h => ?_,
    fun s hr hb => State.offeredWord_isSome_iff hr hb⟩
  obtain ⟨e, he, ho⟩ | ⟨he, ho⟩ := step_emits_offeredWord hb h
  · exact .inl ⟨by simp [ho], e, he, by simp [ho]⟩
  · exact .inr ⟨by simp [ho], he, by simp [ho]⟩

/-! The waits. -/

/-- The four waiting phases with their successors. -/
def IsWait (p q : PhaseCode) : Prop :=
  (p, q) ∈ [(0x2#4, 0x3#4), (0x9#4, 0xA#4), (0xB#4, 0xC#4), (0xF#4, 0x1#4)]

/-- A waiting phase does the shared wait. -/
theorem IsWait.phaseResult {p q : PhaseCode} (h : IsWait p q) (s : State) :
    phaseResult s (decodePhase p) = s.waitThen q := by
  have h' : p = 0x2#4 ∧ q = 0x3#4 ∨ p = 0x9#4 ∧ q = 0xA#4 ∨ p = 0xB#4 ∧ q = 0xC#4 ∨ p = 0xF#4 ∧ q = 0x1#4 := by
    simpa [IsWait] using h
  rcases h' with ⟨rfl, rfl⟩ | ⟨rfl, rfl⟩ | ⟨rfl, rfl⟩ | ⟨rfl, rfl⟩ <;> rfl

/-- The phases that start a wait load its reload value (R29). -/
theorem exec_loads_timer {i : Instr} {T : Config.TimerValue}
    (h : (i, T) ∈ [(Instr.loadAssert, Config.tLoad), (.auxAssert, Config.tAuxHold),
      (.auxRelease, Config.tAuxPause), (.store, Config.tPoll)])
    {s t : State} (he : exec i s = .next t) : t.timer = T := by
  simp only [List.mem_cons, Prod.mk.injEq, List.not_mem_nil, or_false] at h
  rcases h with ⟨rfl, rfl⟩ | ⟨rfl, rfl⟩ | ⟨rfl, rfl⟩ | ⟨rfl, rfl⟩ <;>
    · rw [exec_phase _ _ rfl] at he
      cases he
      rfl

/-- Settles O20, by the two laws of the shared wait: `wait_stays` up to the last execution and `wait_leaves` for it. -/
theorem waitingPhaseExecutesReloadPlusOneTimes : Obligations.WaitingPhaseExecutesReloadPlusOneTimes := by
  refine ⟨fun _ _ => exec_loads_timer (by simp), fun _ _ => exec_loads_timer (by simp),
    fun _ _ => exec_loads_timer (by simp), fun _ _ => exec_loads_timer (by simp), fun p q hpq s hp hb hn => ⟨?_, ?_⟩⟩
  · intro k hk
    obtain ⟨u, hu, hphase, htimer, same⟩ :=
      wait_stays rfl (IsWait.phaseResult hpq) k s hp hb hk (hn.mono (by omega))
    exact ⟨u, hu.run, hphase, htimer, same.loadN, same.sck, same.aux, same.melodyReq, same.raw, same.prev, same.events⟩
  · obtain ⟨u, hu, hphase, htimer, same⟩ := wait_leaves rfl (IsWait.phaseResult hpq) s hp hb hn
    exact ⟨u, hu.run, hphase, htimer, same.events⟩

/-! After reset. -/

/-- Settles O11: the table's values by the definition of the reset state, the banner's word by `offeredWord_of_phase`. -/
theorem resetStateHasTheTabledValues : Obligations.ResetStateHasTheTabledValues := by
  refine ⟨rfl, rfl, rfl, rfl, rfl, rfl, fun s hr hb hp => ?_⟩
  have ho : s.offeredWord = some 0x0000#16 := by
    rw [State.offeredWord_of_phase hr hb, hp]
    rfl
  simp [ho]

end Sys2Proof.Machine
end

section
/-! PROOFS. The statements about the encodings: the phase codes (R74), the events a phase can put on the channel and their
words (R79), the event of one scanned bit (R72). -/

namespace Sys2Proof

/-! The codes. -/

/-- The decoder of both formats reads every 4-bit code as the phase it names (R74). -/
theorem decodeTableWord_phase (c : PhaseCode) : decodeTableWord 8 c.toNat = some (decodePhase c) := by
  simp [decodeTableWord, codeOfNat, decode, c.isLt]

/-- Settles O1: each code is decoded by `decodeTableWord_phase`, and its phase read off the table. -/
theorem phaseCodesDecodeAsTabled : Obligations.PhaseCodesDecodeAsTabled :=
  ⟨decodeTableWord_phase 0x0#4, decodeTableWord_phase 0x1#4, decodeTableWord_phase 0x2#4, decodeTableWord_phase 0x3#4,
    decodeTableWord_phase 0x4#4, decodeTableWord_phase 0x5#4, decodeTableWord_phase 0x6#4, decodeTableWord_phase 0x7#4,
    decodeTableWord_phase 0x8#4, decodeTableWord_phase 0x9#4, decodeTableWord_phase 0xA#4, decodeTableWord_phase 0xB#4,
    decodeTableWord_phase 0xC#4, decodeTableWord_phase 0xD#4, decodeTableWord_phase 0xE#4, decodeTableWord_phase 0xF#4⟩

/-- Code 0x7 is the only one that names `SCAN`. -/
theorem decodePhase_eq_scan {c : PhaseCode} (h : decodePhase c = .scan) : c = 0x7#4 := by
  revert c; decide

/-- A pattern event is emittable exactly when its bit string and its magnitude are the same number (R76). -/
@[simp] theorem Event.wf_pattern (flag : Bool) (str mag : BitVec 3) :
    (Event.pattern flag str mag).wf = true ↔ str = mag := by
  simp [Event.wf]

/-- An input event is emittable exactly when its index is 1 to 4 (R77). -/
@[simp] theorem Event.wf_input (index : BitVec 4) (level : Bool) :
    (Event.input index level).wf = true ↔ 1 ≤ index.toNat ∧ index.toNat ≤ 4 := by
  simp [Event.wf]

/-- The 25 emittable events in the order R79 lists their words: the banner, a pattern per flag and number, an event per input
and level (`Event.wf_iff_mem`). -/
def emittableEvents : List Event :=
  [.banner] ++
    [false, true].flatMap (fun f => (List.range 8).map fun v => .pattern f (BitVec.ofNat 3 v) (BitVec.ofNat 3 v)) ++
    [1#4, 2#4, 3#4, 4#4].flatMap fun i => [.input i true, .input i false]

/-- Every listed event is emittable, and every emittable event is listed. -/
theorem Event.wf_iff_mem (e : Event) : e.wf = true ↔ e ∈ emittableEvents := by
  constructor
  · intro h
    cases e with
    | banner => decide
    | pattern flag str mag =>
      obtain rfl : str = mag := by simpa using h
      revert flag str; decide
    | input index level => revert index level; decide
  · revert e; decide

/-- The words of the emittable events are the packed list. -/
theorem exists_wf_pack_iff (w : EventWord) :
    (∃ e : Event, e.wf = true ∧ e.pack = w) ↔ w ∈ emittableEvents.map Event.pack := by
  simp only [List.mem_map, Event.wf_iff_mem]

end Sys2Proof

namespace Sys2Proof.Machine

/-! One monitored bit. -/

/-- The monitored masks are the one-hot masks of positions 4 to 7 (R6). -/
theorem isMonitored_iff {p : Nat} {m : Byte} : IsMonitored p m ↔ (4 ≤ p ∧ p ≤ 7) ∧ m = 0x01#8 <<< p := by
  constructor
  · intro h
    have h' : p = 7 ∧ m = 0x80#8 ∨ p = 6 ∧ m = 0x40#8 ∨ p = 5 ∧ m = 0x20#8 ∨ p = 4 ∧ m = 0x10#8 := by
      simpa [IsMonitored] using h
    rcases h' with ⟨rfl, rfl⟩ | ⟨rfl, rfl⟩ | ⟨rfl, rfl⟩ | ⟨rfl, rfl⟩ <;> decide
  · rintro ⟨⟨h4, h7⟩, rfl⟩
    interval_cases p <;> simp [IsMonitored]

/-- Every monitored mask has a position. -/
theorem exists_isMonitored {m : Byte} (h : m ∈ [0x80#8, 0x40#8, 0x20#8, 0x10#8]) : ∃ p, IsMonitored p m := by
  simpa [IsMonitored, exists_or] using h

/-- The TransitionSet keeps the differences at the monitored positions and drops the others (R72). -/
theorem getLsbD_transitionSet (raw prev : Byte) {p : Nat} (h4 : 4 ≤ p) (h7 : p ≤ 7) :
    (transitionSet prev raw).getLsbD p = decide (raw.getLsbD p ≠ prev.getLsbD p) := by
  have hmon : monMask.getLsbD p = true := by interval_cases p <;> rfl
  rw [transitionSet, BitVec.getLsbD_and, BitVec.getLsbD_xor, hmon]
  cases raw.getLsbD p <;> cases prev.getLsbD p <;> rfl

/-- Settles O33: the shifted masks are the monitored ones, so the scan's laws for one monitored bit apply. -/
theorem inputEventNamesIndexAndNewLevel : Obligations.InputEventNamesIndexAndNewLevel := by
  intro raw prev p h4 h7
  have h : IsMonitored p (0x01#8 <<< p) := isMonitored_iff.2 ⟨⟨h4, h7⟩, rfl⟩
  exact ⟨h.inputEvent raw, (h.bitDiffers raw prev).trans (getLsbD_transitionSet raw prev h4 h7).symm⟩

/-! Everything a phase emits is emittable. -/

/-- One iteration of `decode` with the mask of position `k` (R130): bit `k` is appended and its weight added. -/
theorem decodeLoop_succ (s : Byte) (n : Nat) {k : Nat} (hk : k < 8) (str : List Bool) (mag : Nat) :
    decodeLoop s (n + 1) (BitVec.twoPow 8 k) str mag =
      decodeLoop s n (BitVec.twoPow 8 k >>> 1) (str ++ [s.getLsbD k]) (mag + 2 ^ k * (s.getLsbD k).toNat) := by
  have hm : BitVec.twoPow 8 k ≠ 0#8 ∧ (BitVec.twoPow 8 k).toNat = 2 ^ k := by interval_cases k <;> decide
  rw [decodeLoop, BitVec.and_twoPow]
  cases s.getLsbD k <;> simp [hm]

/-- The three iterations of `decode`, unrolled (R130). -/
theorem decodeSample_eq (s : Byte) :
    decodeSample s =
      { flag := s.getLsbD 3, str := [s.getLsbD 2, s.getLsbD 1, s.getLsbD 0],
        mag := 4 * (s.getLsbD 2).toNat + 2 * (s.getLsbD 1).toNat + (s.getLsbD 0).toNat } := by
  have hloop : decodeLoop s decCount decStartMask [] 0 = _ :=
    (decodeLoop_succ s 2 (k := 2) (by decide) [] 0).trans <|
      (decodeLoop_succ s 1 (k := 1) (by decide) _ _).trans (decodeLoop_succ s 0 (k := 0) (by decide) _ _)
  have hflag : decide (s &&& flagMask ≠ 0#8) = s.getLsbD 3 := by
    rw [show flagMask = BitVec.twoPow 8 3 from rfl, BitVec.and_twoPow]
    cases s.getLsbD 3 <;> rfl
  rw [decodeSample, hloop, hflag]
  simp [decodeLoop]

/-- Three characters write the number their weights add up to: bit string and magnitude of a sample agree (R76). -/
theorem valStr_three (a b c : Bool) : valStr [a, b, c] = BitVec.ofNat 3 (4 * a.toNat + 2 * b.toNat + c.toNat) := by
  revert a b c; decide

/-- The event of `decode` in closed form (R131): the flag is bit 3; bit string and magnitude are both the low three bits. -/
theorem patternEvent_eq (s : Byte) :
    patternEvent s = .pattern (s.getLsbD 3) (s.extractLsb' 0 3) (s.extractLsb' 0 3) := by
  have hlow : s.extractLsb' 0 3 = valStr [s.getLsbD 2, s.getLsbD 1, s.getLsbD 0] := by
    apply BitVec.eq_of_getLsbD_eq
    intro i hi
    interval_cases i <;> simp [valStr]
  simp only [patternEvent, decodeSample_eq, hlow, valStr_three]

/-- The event of a monitored bit is emittable: positions 7 to 4 have the indices 1 to 4 (R72). -/
theorem IsMonitored.inputEvent_wf {p : Nat} {m : Byte} (h : IsMonitored p m) (raw : Byte) :
    (Machine.inputEvent raw m).wf = true := by
  obtain ⟨⟨h4, h7⟩, -⟩ := isMonitored_iff.1 h
  rw [h.inputEvent, Event.wf_input]
  interval_cases p <;> decide

/-- A phase emits emittable events only, `SCAN` because its mask is a monitored one (R79). -/
theorem State.Inv.phaseEvent_wf {s : State} (hI : s.Inv) {e : Event}
    (h : phaseEvent s (decodePhase s.phase) = some e) : e.wf = true := by
  cases hi : decodePhase s.phase with
  | banner =>
    obtain rfl : Event.banner = e := by simpa [hi, phaseEvent] using h
    rfl
  | compare =>
    obtain ⟨-, rfl⟩ : _ ∧ patternEvent s.raw = e := by simpa [hi, phaseEvent] using h
    simp [patternEvent_eq]
  | scan =>
    obtain ⟨-, rfl⟩ : _ ∧ inputEvent s.raw s.mask = e := by simpa [hi, phaseEvent] using h
    obtain ⟨p, hp⟩ := exists_isMonitored (hI.maskMonitored (decodePhase_eq_scan hi))
    exact hp.inputEvent_wf s.raw
  | _ => simp [hi, phaseEvent] at h

/-- Every event on the channel after a step is emittable: it stood there before, or the phase has just put it there. -/
theorem State.Inv.step_emittable {s t : State} (hI : s.Inv) (h : step s = .next t) {e : Event} (he : e ∈ t.events) :
    e.wf = true := by
  obtain ⟨-, rfl⟩ | ⟨-, rfl⟩ := step_next_cases hI.bench h
  · exact hI.emittable e (by simpa using he)
  · rw [State.advance_events, phaseResult_events, List.mem_append] at he
    rcases he with hold | hnew
    · exact hI.emittable e hold
    · exact hI.phaseEvent_wf (by simpa using hnew)

/-! Every emittable event is emitted: a state with the invariant for each. -/

/-- About to execute `COMPARE` on these two samples. -/
def atCompare (raw prev : Byte) : State := { State.reset with phase := Phase.compare, raw, prev }

/-- About to execute `SCAN` on these two samples with this mask, `changed` as `COMPARE` leaves it. -/
def atScan (raw prev mask : Byte) : State :=
  { State.reset with phase := Phase.scan, raw, prev, mask, changed := wholeByteDiffers raw prev }

/-- The invariant constrains no sample and no mask at reset and at `COMPARE`; at `SCAN` the mask must be monitored. -/
theorem inv_reset : State.reset.Inv := by
  constructor <;> simp [State.reset, sentinel]

theorem inv_atCompare (raw prev : Byte) : (atCompare raw prev).Inv := by
  constructor <;> simp [atCompare, State.reset]

theorem inv_atScan {p : Nat} {mask : Byte} (h : IsMonitored p mask) (raw prev : Byte) : (atScan raw prev mask).Inv := by
  have hmask : mask ∈ [0x80#8, 0x40#8, 0x20#8, 0x10#8] := by
    simp only [IsMonitored, List.mem_cons, Prod.mk.injEq, List.not_mem_nil, or_false] at h ⊢
    tauto
  constructor <;> simp_all [atScan, State.reset, wholeByteDiffers]

/-- Each emittable event is the event of the phase at some state with the invariant: the banner at reset, a pattern at the
`COMPARE` of the sample that carries it, an input's event at the `SCAN` of its bit. -/
theorem exists_inv_phaseEvent {e : Event} (h : e.wf = true) :
    ∃ s : State, s.Inv ∧ s.inputs.rst = false ∧ phaseEvent s (decodePhase s.phase) = some e := by
  cases e with
  | banner => exact ⟨State.reset, inv_reset, rfl, rfl⟩
  | pattern flag str mag =>
    obtain rfl : str = mag := by simpa using h
    refine ⟨atCompare (0x0#4 ++ BitVec.ofBool flag ++ str) sentinel, inv_atCompare _ _, rfl, ?_⟩
    revert flag str; decide
  | input index level =>
    obtain ⟨h1, h4⟩ := (Event.wf_input index level).1 h
    refine ⟨atScan (BitVec.fill 8 level) (BitVec.fill 8 !level) (0x01#8 <<< (8 - index.toNat)),
      inv_atScan (isMonitored_iff.2 ⟨by omega, rfl⟩) _ _, rfl, ?_⟩
    revert index level; decide

/-- A phase's event is what the step without reset puts on the channel. -/
theorem exists_step_of_phaseEvent {s : State} {e : Event} (hr : s.inputs.rst = false) (hb : s.benchWord = none)
    (h : phaseEvent s (decodePhase s.phase) = some e) : ∃ t, step s = .next t ∧ t.events = s.events ++ [e] :=
  ⟨_, step_of_phase hr hb, by rw [State.advance_events, phaseResult_events, h]; rfl⟩

/-- Settles O5: the listed words are the packed `emittableEvents`, the invariant bounds what a step emits, and
`exists_inv_phaseEvent` gives a state for each event. -/
theorem emittedWordsAreTheTwentyFive : Obligations.EmittedWordsAreTheTwentyFive := by
  refine ⟨fun c => ⟨decodePhase c, decodePhase_isPhase c, rfl⟩, exists_wf_pack_iff,
    fun s t hI h e he => hI.step_emittable h he, fun e he => ?_⟩
  obtain ⟨s, hI, hr, hs⟩ := exists_inv_phaseEvent he
  obtain ⟨t, ht, hevents⟩ := exists_step_of_phaseEvent hr hI.bench hs
  exact ⟨s, t, hI, ht, hevents⟩

end Sys2Proof.Machine
end

section
/-! PROOFS. One phase step seen from the reader (40_register_reader.md): where the sequencer can go (R156), which phases write
the reader's registers, and what the two lines and the dummy byte show at each phase. -/

namespace Sys2Proof

/-! The code behind each of the reader's phases, and behind `COMPARE`. -/

@[simp] theorem decodePhase_eq_loadAssert_iff {c : PhaseCode} : decodePhase c = .loadAssert ↔ c = 0x1#4 := by
  revert c; decide

@[simp] theorem decodePhase_eq_loadRelease_iff {c : PhaseCode} : decodePhase c = .loadRelease ↔ c = 0x3#4 := by
  revert c; decide

@[simp] theorem decodePhase_eq_shiftSample_iff {c : PhaseCode} : decodePhase c = .shiftSample ↔ c = 0x4#4 := by
  revert c; decide

@[simp] theorem decodePhase_eq_shiftAdvance_iff {c : PhaseCode} : decodePhase c = .shiftAdvance ↔ c = 0x5#4 := by
  revert c; decide

@[simp] theorem decodePhase_eq_compare_iff {c : PhaseCode} : decodePhase c = .compare ↔ c = 0x6#4 := by
  revert c; decide

end Sys2Proof

namespace Sys2Proof.Machine

/-! The phase graph. -/

/-- The edges of R156's table without its reset row (`afterPhase_mem_phaseGraph`). -/
def phaseGraph : List (PhaseCode × PhaseCode) :=
  [(Phase.banner, Phase.loadAssert),
    (Phase.loadAssert, Phase.loadHold),
    (Phase.loadHold, Phase.loadHold), (Phase.loadHold, Phase.loadRelease),
    (Phase.loadRelease, Phase.shiftSample),
    (Phase.shiftSample, Phase.shiftAdvance),
    (Phase.shiftAdvance, Phase.shiftSample), (Phase.shiftAdvance, Phase.compare),
    (Phase.compare, Phase.scan),
    (Phase.scan, Phase.scan), (Phase.scan, Phase.auxAssert), (Phase.scan, Phase.store),
    (Phase.auxAssert, Phase.auxHold),
    (Phase.auxHold, Phase.auxHold), (Phase.auxHold, Phase.auxRelease),
    (Phase.auxRelease, Phase.auxPause),
    (Phase.auxPause, Phase.auxPause), (Phase.auxPause, Phase.melodyStart),
    (Phase.melodyStart, Phase.melodyWait),
    (Phase.melodyWait, Phase.melodyWait), (Phase.melodyWait, Phase.store),
    (Phase.store, Phase.pollWait),
    (Phase.pollWait, Phase.pollWait), (Phase.pollWait, Phase.loadAssert)]

/-- A phase step goes along an edge of the graph; only for `SCAN` do two tests decide which. -/
theorem afterPhase_mem_phaseGraph (s : State) : (s.phase, s.afterPhase.phase) ∈ phaseGraph := by
  rcases phaseCode_cases s.phase with h | h | h | h | h | h | h | h | h | h | h | h | h | h | h | h <;>
    simp [State.afterPhase, phaseResult, h, scanSuccessor, phaseGraph, apply_ite State.phase, ite_eq_iff, em']
  cases lastScan s.mask <;> cases s.changed <;> simp

/-- `LOAD_ASSERT` is entered from `BANNER` and `POLL_WAIT` only (R92). -/
theorem phaseGraph_into_loadAssert :
    ∀ e ∈ phaseGraph, e.2 = 0x1#4 → e.1 = 0x0#4 ∨ e.1 = 0xF#4 := by
  simp [phaseGraph]

/-- The two phases of the load pulse are the successors of `LOAD_ASSERT` and `LOAD_HOLD`, and of nothing else. -/
theorem phaseGraph_into_loadPulse :
    ∀ e ∈ phaseGraph, (e.2 = 0x2#4 ∨ e.2 = 0x3#4) ↔ (e.1 = 0x1#4 ∨ e.1 = 0x2#4) := by
  simp [phaseGraph]

/-- `SHIFT_ADVANCE` is the successor of `SHIFT_SAMPLE`, and of nothing else. -/
theorem phaseGraph_into_shiftAdvance : ∀ e ∈ phaseGraph, e.2 = 0x5#4 ↔ e.1 = 0x4#4 := by
  simp [phaseGraph]

/-- The exchange is entered from `LOAD_RELEASE` only. -/
theorem phaseGraph_into_exchange :
    ∀ e ∈ phaseGraph, e.2 = 0x4#4 ∨ e.2 = 0x5#4 → e.1 = 0x3#4 ∨ e.1 = 0x4#4 ∨ e.1 = 0x5#4 := by
  simp [phaseGraph]

/-! Which phases write the reader's registers (R24). -/

theorem phaseResult_raw (s : State) (i : Instr) :
    (phaseResult s i).raw = if i = .shiftSample then shiftInLow s.raw s.inputs.serIn else s.raw := by
  cases i <;> simp [phaseResult, apply_ite State.raw]

theorem phaseResult_tx (s : State) (i : Instr) :
    (phaseResult s i).tx =
      if i = .loadRelease then dummyByte else if i = .shiftAdvance then shiftInLow s.tx false else s.tx := by
  cases i <;> simp [phaseResult, apply_ite State.tx]

theorem phaseResult_loadN (s : State) (i : Instr) :
    (phaseResult s i).loadN = if i = .loadAssert then false else if i = .loadRelease then true else s.loadN := by
  cases i <;> simp [phaseResult, apply_ite State.loadN]

theorem phaseResult_sck (s : State) (i : Instr) :
    (phaseResult s i).sck = if i = .shiftSample then true else if i = .shiftAdvance then false else s.sck := by
  cases i <;> simp [phaseResult, apply_ite State.sck]

/-! The reader's part of the invariant. -/

/-- What `State.Inv` says of the reader's lines (`State.Inv.readerLines`); every phase step keeps it by itself. -/
structure ReaderLines (s : State) : Prop where
  loadLow : s.loadN = false ↔ s.phase = Phase.loadHold ∨ s.phase = Phase.loadRelease
  sckHigh : s.sck = true ↔ s.phase = Phase.shiftAdvance
  txZero : s.phase = Phase.shiftSample ∨ s.phase = Phase.shiftAdvance → s.tx = 0x00#8

theorem State.Inv.readerLines {s : State} (hI : s.Inv) : ReaderLines s := ⟨hI.loadLow, hI.sckHigh, hI.txZero⟩

/-- The phases that write a line are the ones through which the graph enters and leaves the phases where it is active; the
dummy byte stays zero when it is shifted. -/
theorem ReaderLines.afterPhase {s : State} (h : ReaderLines s) : ReaderLines s.afterPhase := by
  obtain ⟨hload, hsck, htx⟩ := h
  have hedge := afterPhase_mem_phaseGraph s
  constructor
  case loadLow =>
    rw [Phase.loadHold_code, Phase.loadRelease_code, phaseGraph_into_loadPulse _ hedge]
    simp only [State.afterPhase, State.advance_loadN, phaseResult_loadN, decodePhase_eq_loadAssert_iff,
      decodePhase_eq_loadRelease_iff]
    split_ifs <;> simp_all
  case sckHigh =>
    rw [Phase.shiftAdvance_code, phaseGraph_into_shiftAdvance _ hedge]
    simp only [State.afterPhase, State.advance_sck, phaseResult_sck, decodePhase_eq_shiftSample_iff,
      decodePhase_eq_shiftAdvance_iff]
    split_ifs <;> simp_all
  case txZero =>
    intro hinto
    have hfrom := phaseGraph_into_exchange _ hedge hinto
    have hshift : shiftInLow 0x00#8 false = 0x00#8 := by decide
    simp only [State.afterPhase, State.advance_tx, phaseResult_tx, decodePhase_eq_loadRelease_iff,
      decodePhase_eq_shiftAdvance_iff, dummyByte]
    split_ifs <;> simp_all

/-- Settles O17: the entry by the phase graph, the levels on entry by `ReaderLines` after the step. -/
theorem loadAssertBeginsTheLoadPulse : Obligations.LoadAssertBeginsTheLoadPulse := by
  refine ⟨fun _ => rfl, fun s t hI hst hp => ?_⟩
  obtain ⟨-, rfl⟩ | ⟨-, ht⟩ := step_next_cases hI.bench hst
  · simp at hp
  · obtain rfl : t = s.afterPhase := ht
    have hlines := hI.readerLines.afterPhase
    exact ⟨phaseGraph_into_loadAssert _ (afterPhase_mem_phaseGraph s) hp, by simpa [hp] using hlines.loadLow,
      by simpa [hp] using hlines.sckHigh⟩

/-- Settles O18: the effect by definition, the level during the step by the invariant. -/
theorem loadReleaseEndsTheLoadPulse : Obligations.LoadReleaseEndsTheLoadPulse :=
  ⟨fun _ => rfl, fun _ hI hp => hI.loadLow.2 (.inr hp)⟩

end Sys2Proof.Machine
end

section
/-! PROOFS. The run of `read()` (R91): its phases in order, the byte it leaves in `raw` (R99), and from both what the lines show
in each of its periods (R98). -/

namespace Sys2Proof.Machine

/-! What `read()` leaves alone. -/

/-- The registers that the reader does not write, and the channel, are the same. -/
structure SameOutsideReader (u s : State) : Prop where
  prev : u.prev = s.prev
  mask : u.mask = s.mask
  changed : u.changed = s.changed
  aux : u.aux = s.aux
  melodyReq : u.melodyReq = s.melodyReq
  events : u.events = s.events

theorem SameOutsideReader.refl (s : State) : SameOutsideReader s s := ⟨rfl, rfl, rfl, rfl, rfl, rfl⟩

theorem SameOutsideReader.trans {u t s : State} (h : SameOutsideReader u t) (h' : SameOutsideReader t s) :
    SameOutsideReader u s :=
  ⟨h.prev.trans h'.prev, h.mask.trans h'.mask, h.changed.trans h'.changed, h.aux.trans h'.aux,
    h.melodyReq.trans h'.melodyReq, h.events.trans h'.events⟩

theorem SameButTimer.sameOutsideReader {u s : State} (h : SameButTimer u s) : SameOutsideReader u s :=
  ⟨h.prev, h.mask, h.changed, h.aux, h.melodyReq, h.events⟩

/-! The two halves of `read()`: the load pulse and the exchange. -/

/-- The phases of the load pulse, the first half of `readPhases` (`readPhases_eq`). -/
def loadPhases : List Instr := [.loadAssert] ++ waits .loadHold Config.tLoad ++ [.loadRelease]

/-- The phases that exchange `n` bits; eight are the second half of `readPhases` (`readPhases_eq`). -/
def exchangePhases (n : Nat) : List Instr := (List.replicate n [Instr.shiftSample, .shiftAdvance]).flatten

theorem readPhases_eq : readPhases = loadPhases ++ exchangePhases 8 := rfl

theorem loadPhases_length : loadPhases.length = Config.tLoad.toNat + 3 := by
  simp [loadPhases, waits]

theorem eq_of_mem_loadPhases {i : Instr} (h : i ∈ loadPhases) : i = .loadAssert ∨ i = .loadHold ∨ i = .loadRelease := by
  simpa [loadPhases, waits] using h

/-- The load pulse: `LOAD_ASSERT`, the wait, `LOAD_RELEASE`. -/
theorem load_reach {s : State} (hp : s.phase = 0x1#4) (hb : s.benchWord = none)
    (hn : NoReset s (Config.tLoad.toNat + 3)) :
    ∃ u, Reach s (Config.tLoad.toNat + 3) loadPhases u ∧ u.phase = 0x4#4 ∧ u.bitcnt = 0#3 ∧ SameOutsideReader u s := by
  have hassert := Reach.one (hn 0 (by omega)) hb
  have eassert : s.afterPhase = (((s.setLoadN false).setTimer Config.tLoad).goto Phase.loadHold).advance := by
    rw [State.afterPhase, hp]; rfl
  have htimer : s.afterPhase.timer = Config.tLoad := by simp [eassert]
  have hn' : NoReset s.afterPhase (Config.tLoad.toNat + 2) := hassert.noReset (by rwa [Nat.add_comm])
  obtain ⟨t, hhold, hpt, -, hsame⟩ :=
    wait_leaves rfl (IsWait.phaseResult (p := 0x2#4) (q := 0x3#4) (by simp [IsWait])) s.afterPhase
      (by simp [eassert]) hassert.bench (hn'.mono (by rw [htimer]; omega))
  rw [htimer] at hhold
  have hrelease := Reach.one (hhold.noReset (n := 1) hn').head hhold.bench
  have erelease : t.afterPhase =
      ((((t.setLoadN true).setBitcnt 0#3).setTx dummyByte).goto Phase.shiftSample).advance := by
    rw [State.afterPhase, hpt]; rfl
  refine ⟨t.afterPhase, ?_, by simp [erelease], by simp [erelease], ?_⟩
  · have h := (hassert.trans hhold).trans hrelease
    rw [hp, hpt] at h
    rwa [show 1 + (Config.tLoad.toNat + 1) + 1 = Config.tLoad.toNat + 3 by omega] at h
  · have hfirst : SameOutsideReader s.afterPhase s := by rw [eassert]; constructor <;> simp
    have hlast : SameOutsideReader t.afterPhase t := by rw [erelease]; constructor <;> simp
    exact (hlast.trans hsame.sameOutsideReader).trans hfirst

/-- The first `n` bits of the exchange: the presented byte's `n` highest bits stand in the low bits of `raw`. -/
theorem exchange_reach {s : State} (hp : s.phase = 0x4#4) (hb : s.benchWord = none) (h0 : s.bitcnt = 0#3) (n : Nat)
    (hn8 : n ≤ 8) (hn : NoReset s (2 * n)) :
    ∃ u, Reach s (2 * n) (exchangePhases n) u ∧ u.phase = (if n = 8 then 0x6#4 else 0x4#4) ∧
      u.bitcnt = BitVec.ofNat 3 n ∧
      (∀ L, Presents s L 0 → ∀ i, i < n → u.raw.getLsbD i = L.getLsbD (8 - n + i)) ∧ SameOutsideReader u s := by
  induction n with
  | zero => exact ⟨s, Reach.refl hb, hp, h0, fun _ _ _ hi => absurd hi (Nat.not_lt_zero _), .refl s⟩
  | succ n ih =>
    obtain ⟨t, ht, hpt, hcount, hraw, hsame⟩ := ih (by omega) (hn.mono (by omega))
    obtain ⟨u, hu, huraw, -, hucount, hup, -, hprev, hmask, hchanged, -, -, haux, hmelodyReq, hevents⟩ :=
      exchange_bit t (by rw [hpt, if_neg (by omega)]) ht.bench (ht.noReset hn)
    have hlast : BitVec.ofNat 3 n = 7#3 ↔ n + 1 = 8 := by
      have : n < 8 := hn8
      interval_cases n <;> decide
    refine ⟨u, ?_, by simp only [hup, hcount, hlast], by rw [hucount, hcount]; simp [BitVec.ofNat_add],
      fun L hL i hi => ?_, .trans ⟨hprev, hmask, hchanged, haux, hmelodyReq, hevents⟩ hsame⟩
    · simpa [exchangePhases, List.replicate_succ', Nat.mul_succ] using ht.trans hu
    · have hserIn : (t.inputsAt 0).serIn = L.getLsbD (7 - n) := by
        rw [ht.inputsAt, ← hL n (by omega), Nat.zero_add, Nat.add_zero]
      rw [huraw, hserIn]
      cases i with
      | zero => rw [shiftInLow_getLsbD_zero]; congr 1; omega
      | succ i => rw [shiftInLow_getLsbD_succ _ _ _ (by omega), hraw L hL i (by omega)]; congr 1; omega

/-- `read()` from `LOAD_ASSERT` to `COMPARE` (R91): its phases, the latched byte in `raw` if one is presented (R99), and
everything outside the reader as it was. -/
theorem read_reach {s : State} (hp : s.phase = 0x1#4) (hb : s.benchWord = none)
    (hn : NoReset s (19 + Config.tLoad.toNat)) :
    ∃ u, Reach s (19 + Config.tLoad.toNat) readPhases u ∧ u.phase = 0x6#4 ∧
      (∀ L, Presents s L (Config.tLoad.toNat + 3) → u.raw = L) ∧ SameOutsideReader u s := by
  have hsplit : 19 + Config.tLoad.toNat = Config.tLoad.toNat + 3 + 2 * 8 := by omega
  rw [hsplit] at hn ⊢
  obtain ⟨t, ht, hpt, hcount, hload⟩ := load_reach hp hb (hn.mono (by omega))
  obtain ⟨u, hu, hpu, -, hraw, hexchange⟩ := exchange_reach hpt ht.bench hcount 8 (Nat.le_refl 8) (ht.noReset hn)
  refine ⟨u, ht.trans hu, hpu, fun L hL => BitVec.eq_of_getLsbD_eq fun i hi => ?_, hexchange.trans hload⟩
  have hLt : Presents t L 0 := fun k hk => by rw [ht.inputsAt, Nat.zero_add]; exact hL k hk
  simpa using hraw L hLt i hi

/-! The phase and the invariant of each state on the way. -/

/-- The `k`-th phase of a run is the one that the state after `k` steps names. -/
theorem State.phasesRun_getElem? {s u : State} {k n : Nat} (hk : k < n) (h : s.run k = .next u) :
    (s.phasesRun n)[k]? = some (decodePhase u.phase) := by
  obtain ⟨n, rfl⟩ : ∃ m, n = m + 1 := ⟨n - 1, by omega⟩
  induction k generalizing s n with
  | zero =>
    cases h
    simp [State.phasesRun, State.history]
  | succ k ih =>
    obtain ⟨t, hst, ht⟩ := State.run_succ_cases k h
    obtain ⟨n, rfl⟩ : ∃ m, n = m + 1 := ⟨n - 1, by omega⟩
    rw [State.phasesRun, State.history_succ _ hst]
    simpa [State.phasesRun] using ih ht n (by omega)

theorem State.phasesRun_one (s : State) : s.phasesRun 1 = [decodePhase s.phase] := by
  simp only [State.phasesRun, State.history]
  split <;> rfl

/-- A run without reset has its states, and what every phase step keeps holds in each. -/
theorem exists_run_of_afterPhase_keeps {P : State → Prop} (hP : ∀ s, P s → P s.afterPhase) {s : State} (hs : P s)
    (hb : s.benchWord = none) {n : Nat} (hn : NoReset s n) : ∃ u, s.run n = .next u ∧ P u := by
  induction n generalizing s with
  | zero => exact ⟨s, rfl, hs⟩
  | succ n ih =>
    rw [State.run_phase n hn.head hb]
    exact ih (hP s hs) (State.advance_benchWord _) (hn.tail _)

/-! The schedule of `read()`: which phase stands at which of its periods. -/

/-- The phases of `read()` and the `COMPARE` that is due after it. -/
def readSchedule : List Instr := readPhases ++ [.compare]

/-- Up to the first `COMPARE`, the state after `k` steps from `LOAD_ASSERT` names the `k`-th phase of the schedule. -/
theorem readSchedule_getElem?_of_run {s u : State} (hp : s.phase = 0x1#4) (hb : s.benchWord = none)
    (hn : NoReset s (19 + Config.tLoad.toNat)) {k : Nat} (hk : k ≤ 19 + Config.tLoad.toNat) (hu : s.run k = .next u) :
    readSchedule[k]? = some (decodePhase u.phase) := by
  obtain ⟨t, ht, hpt, -⟩ := read_reach hp hb hn
  have hphases : s.phasesRun (19 + Config.tLoad.toNat + 1) = readSchedule := by
    rw [State.phasesRun_add _ 1 ht.run, ht.phases, State.phasesRun_one, hpt]
    rfl
  rw [← hphases]
  exact State.phasesRun_getElem? (Nat.lt_succ_of_le hk) hu

theorem readSchedule_of_lt {k : Nat} (hk : k < Config.tLoad.toNat + 3) : readSchedule[k]? = loadPhases[k]? := by
  rw [readSchedule, readPhases_eq, List.append_assoc, List.getElem?_append_left (by rwa [loadPhases_length])]

theorem readSchedule_add (m : Nat) :
    readSchedule[Config.tLoad.toNat + 3 + m]? = (exchangePhases 8 ++ [.compare])[m]? := by
  rw [readSchedule, readPhases_eq, List.append_assoc, ← loadPhases_length,
    List.getElem?_append_right (Nat.le_add_right _ _), Nat.add_sub_cancel_left]

/-- In the exchange `SHIFT_SAMPLE` stands at the even and `SHIFT_ADVANCE` at the odd periods. -/
theorem exchange_getElem? : ∀ j < 8, (exchangePhases 8 ++ [.compare])[2 * j]? = some .shiftSample ∧
    (exchangePhases 8 ++ [.compare])[2 * j + 1]? = some .shiftAdvance := by
  decide

theorem exchange_eq_shiftAdvance_iff :
    ∀ m < 17, (exchangePhases 8 ++ [.compare])[m]? = some .shiftAdvance ↔ ∃ j < 8, m = 2 * j + 1 := by
  decide

/-- The `j`-th bit of the exchange takes the periods `T_LOAD + 3 + 2j` and `T_LOAD + 4 + 2j`. -/
theorem readSchedule_bit {j : Nat} (hj : j < 8) :
    readSchedule[Config.tLoad.toNat + 3 + 2 * j]? = some .shiftSample ∧
      readSchedule[Config.tLoad.toNat + 3 + 2 * j + 1]? = some .shiftAdvance := by
  obtain ⟨hsample, hadvance⟩ := exchange_getElem? j hj
  exact ⟨(readSchedule_add _).trans hsample, (readSchedule_add _).trans hadvance⟩

/-- `SHIFT_ADVANCE` stands at the second period of each bit and nowhere else. -/
theorem readSchedule_eq_shiftAdvance_iff {k : Nat} (hk : k ≤ 19 + Config.tLoad.toNat) :
    readSchedule[k]? = some .shiftAdvance ↔ ∃ j, j < 8 ∧ k = Config.tLoad.toNat + 3 + 2 * j + 1 := by
  obtain hlt | hge := Nat.lt_or_ge k (Config.tLoad.toNat + 3)
  · have hload : readSchedule[k]? ≠ some .shiftAdvance := fun h => by
      rw [readSchedule_of_lt hlt] at h
      simpa using eq_of_mem_loadPhases (List.mem_of_getElem? h)
    exact iff_of_false hload (by omega)
  · obtain ⟨m, rfl⟩ := Nat.exists_eq_add_of_le hge
    rw [readSchedule_add, exchange_eq_shiftAdvance_iff m (by omega)]
    simp only [Nat.add_assoc, Nat.add_left_cancel_iff]

theorem compare_notMem_readPhases : Instr.compare ∉ readPhases := by
  simp [readPhases, waits]

/-- Settles O22: the byte and the frame by `read_reach`, the first `COMPARE` because none is among `readPhases`, and the
writer of `raw` by `phaseResult_raw`. -/
theorem readReturnsTheLatchedByte : Obligations.ReadReturnsTheLatchedByte := by
  refine ⟨fun s L hp hb hn hL => ?_, fun s t hb hr hst hp => ?_⟩
  · obtain ⟨u, hu, hpu, hraw, same⟩ := read_reach hp hb hn
    refine ⟨⟨u, hu.run, hpu, hraw L hL, same.prev, same.changed, same.mask, same.events⟩, fun k t hk ht hpt => ?_⟩
    have hphase := State.phasesRun_getElem? hk ht
    rw [hu.phases, hpt] at hphase
    exact compare_notMem_readPhases (List.mem_of_getElem? hphase)
  · cases (step_of_phase hr hb).symm.trans hst
    simp [phaseResult_raw, hp]

/-- Settles O37: `ReaderLines` holds in each period and says what the lines show at its phase, and the schedule says which
phase that is. -/
theorem exchangeHasEightClockPulses : Obligations.ExchangeHasEightClockPulses := by
  refine ⟨fun s hI => ⟨hI.sckHigh, s.outputs_enN⟩, fun s hI hp hn k hk => ?_⟩
  obtain ⟨u, hu, hlines⟩ :=
    exists_run_of_afterPhase_keeps (P := ReaderLines) (fun _ => ReaderLines.afterPhase) hI.readerLines hI.bench
      (hn.mono hk)
  have hphase := readSchedule_getElem?_of_run hp hI.bench hn hk hu
  refine ⟨u, hu, ?_, fun j hj hkj => ?_⟩
  · have hadvance : u.phase = 0x5#4 ↔ readSchedule[k]? = some .shiftAdvance := by simp [hphase]
    exact hlines.sckHigh.trans (hadvance.trans (readSchedule_eq_shiftAdvance_iff hk))
  · obtain ⟨hsample, hadvance⟩ := readSchedule_bit hj
    have hshift : u.phase = 0x4#4 ∨ u.phase = 0x5#4 := by
      obtain rfl | rfl := hkj
      · exact .inl (by simpa [hsample] using hphase.symm)
      · exact .inr (by simpa [hadvance] using hphase.symm)
    rw [State.outputs_serOut, hlines.txZero hshift]
    simp [dummyByte]

end Sys2Proof.Machine
end

section
/-! PROOFS. The statements about the change detector (41_change_detector.md): the report of `update` in closed form (R115) and
its testable properties (R117), and the effect of `COMPARE` (R111). -/

namespace Sys2Proof.Machine

/-! The TransitionSet. -/

/-- The positions below the monitored ones are never in the TransitionSet (R72). -/
theorem getLsbD_transitionSet_low (prev s : Byte) {p : Nat} (h : p < 4) : (transitionSet prev s).getLsbD p = false := by
  have hmon : monMask.getLsbD p = false := by interval_cases p <;> rfl
  rw [transitionSet, BitVec.getLsbD_and, hmon, Bool.and_false]

/-- Without a change the TransitionSet is empty. -/
@[simp] theorem transitionSet_self (s : Byte) : transitionSet s s = 0#8 := by
  simp [transitionSet]

/-- Toggling bits puts the monitored ones among them in the TransitionSet. -/
theorem transitionSet_xor (prev v : Byte) : transitionSet prev (prev ^^^ v) = v &&& monMask := by
  rw [transitionSet, BitVec.xor_comm prev v, BitVec.xor_assoc, BitVec.xor_self, BitVec.xor_zero]

/-- Toggling one monitored bit makes the TransitionSet its mask. -/
theorem transitionSet_toggle (prev : Byte) {p : Nat} (h4 : 4 ≤ p) (h7 : p ≤ 7) :
    transitionSet prev (prev ^^^ (0x01#8 <<< p)) = 0x01#8 <<< p := by
  rw [transitionSet_xor]
  interval_cases p <;> rfl

/-! The report of `update` in closed form (R115). -/

/-- The positions that `update` reports, in its order: the monitored positions in the TransitionSet. -/
def reportedPositions (prev s : Byte) : List Nat := [7, 6, 5, 4].filter (transitionSet prev s).getLsbD

/-- The event of position `p` in a report on sample `s`: its input index and its new level (R72). -/
def positionEvent (s : Byte) (p : Nat) : Event := .input (BitVec.ofNat 4 (8 - p)) (s.getLsbD p)

theorem mem_reportedPositions {prev s : Byte} {p : Nat} :
    p ∈ reportedPositions prev s ↔ (4 ≤ p ∧ p ≤ 7) ∧ (transitionSet prev s).getLsbD p = true := by
  have hmem : p ∈ [7, 6, 5, 4] ↔ 4 ≤ p ∧ p ≤ 7 := by simp; omega
  rw [reportedPositions, List.mem_filter, hmem]

/-- The number of reported positions is the number of 1 bits of the TransitionSet. -/
theorem length_reportedPositions (prev s : Byte) :
    (reportedPositions prev s).length = (List.range 8).countP (transitionSet prev s).getLsbD := by
  have hlow : [0, 1, 2, 3].countP (transitionSet prev s).getLsbD = 0 :=
    List.countP_eq_zero.2 fun p hp => by simp [getLsbD_transitionSet_low prev s (p := p) (by simp at hp; omega)]
  have hrange : List.range 8 = [0, 1, 2, 3] ++ [7, 6, 5, 4].reverse := rfl
  rw [hrange, List.countP_append, hlow, Nat.zero_add, List.countP_reverse, reportedPositions,
    List.countP_eq_length_filter]

/-- What `update` reports for a list of monitored positions: one event for each of them in the TransitionSet. -/
theorem flatMap_inputReport (prev s : Byte) (ps : List Nat) (h : ∀ p ∈ ps, 4 ≤ p ∧ p ≤ 7) :
    ps.flatMap (inputReport prev s) = (ps.filter (transitionSet prev s).getLsbD).map (positionEvent s) := by
  induction ps with
  | nil => rfl
  | cons p ps ih =>
    obtain ⟨⟨h4, h7⟩, hps⟩ := List.forall_mem_cons.1 h
    have hp : inputReport prev s p = if (transitionSet prev s).getLsbD p then [positionEvent s p] else [] := by
      simp [inputReport, positionEvent, getLsbD_transitionSet s prev h4 h7]
    rw [List.flatMap_cons, ih hps, hp, List.filter_cons]
    split_ifs <;> rfl

/-- `update` reports the pattern if the byte changed, and then one input for each position in the TransitionSet. -/
theorem update_events (prev s : Byte) :
    (update prev s).events =
      (if s ≠ prev then [patternEvent s] else []) ++ (reportedPositions prev s).map (positionEvent s) :=
  congrArg _ (flatMap_inputReport prev s _ (by decide))

/-- Pattern events in a report: one for a changed byte (R115). -/
theorem countP_pattern_update {f : Event → Bool} (hpattern : ∀ flag str mag, f (.pattern flag str mag) = true)
    (hinput : ∀ index level, f (.input index level) = false) (prev s : Byte) :
    (update prev s).events.countP f = if s ^^^ prev ≠ 0#8 then 1 else 0 := by
  have hinputs : ((reportedPositions prev s).map (positionEvent s)).countP f = 0 := by
    simp [List.countP_eq_zero, positionEvent, hinput]
  rw [update_events, List.countP_append, hinputs, patternEvent_eq]
  simp only [ne_eq, BitVec.xor_eq_zero_iff]
  split_ifs <;> simp [hpattern]

/-- Input events in a report: one for each 1 bit of the TransitionSet (R115). -/
theorem countP_input_update {f : Event → Bool} (hpattern : ∀ flag str mag, f (.pattern flag str mag) = false)
    (hinput : ∀ index level, f (.input index level) = true) (prev s : Byte) :
    (update prev s).events.countP f = (List.range 8).countP (transitionSet prev s).getLsbD := by
  have hpatterns : (if s ≠ prev then [patternEvent s] else []).countP f = 0 := by
    rw [patternEvent_eq]
    split_ifs <;> simp [hpattern]
  have hinputs : ((reportedPositions prev s).map (positionEvent s)).countP f = (reportedPositions prev s).length := by
    rw [List.countP_map]
    exact List.countP_eq_length.2 fun p _ => hinput _ _
  rw [update_events, List.countP_append, hpatterns, hinputs, Nat.zero_add, length_reportedPositions]

/-- A report names a monitored position's input exactly when the position is in the TransitionSet, with the new level. -/
theorem input_mem_update_events (prev s : Byte) {p : Nat} (h4 : 4 ≤ p) (h7 : p ≤ 7) (level : Bool) :
    .input (BitVec.ofNat 4 (8 - p)) level ∈ (update prev s).events ↔
      (transitionSet prev s).getLsbD p = true ∧ s.getLsbD p = level := by
  have hindex (q : Nat) (hq : 4 ≤ q ∧ q ≤ 7) : BitVec.ofNat 4 (8 - q) = BitVec.ofNat 4 (8 - p) ↔ q = p := by
    rw [← BitVec.toNat_inj, BitVec.toNat_ofNat, BitVec.toNat_ofNat]
    omega
  have hpattern : Event.input (BitVec.ofNat 4 (8 - p)) level ∉ if s ≠ prev then [patternEvent s] else [] := by
    rw [patternEvent_eq]
    split_ifs <;> simp
  simp only [update_events, List.mem_append, hpattern, false_or, List.mem_map, mem_reportedPositions, positionEvent,
    Event.input.injEq]
  constructor
  · rintro ⟨q, ⟨hq, hset⟩, hqp, hlevel⟩
    obtain rfl := (hindex q hq).1 hqp
    exact ⟨hset, hlevel⟩
  · rintro ⟨hset, hlevel⟩
    exact ⟨p, ⟨⟨h4, h7⟩, hset⟩, rfl, hlevel⟩

/-- Settles O34: the counts by the two parts of `update_events`, the positions by `input_mem_update_events`. -/
theorem reportInClosedForm : Obligations.ReportInClosedForm := by
  refine fun prev s => ⟨countP_pattern_update (fun _ _ _ => rfl) (fun _ _ => rfl) prev s,
    countP_input_update (fun _ _ _ => rfl) (fun _ _ => rfl) prev s, fun p h4 h7 => ?_⟩
  simp only [input_mem_update_events prev s h4 h7, exists_and_left, exists_eq', and_true]
  rfl

/-! The testable properties of `update` (R117). -/

/-- A call with the stored sample reports nothing. -/
theorem update_self_events (s : Byte) : (update s s).events = [] := by
  simp [update_events, reportedPositions]

/-- A changed byte is reported first. -/
theorem update_events_head? {prev s : Byte} (h : s ≠ prev) : (update prev s).events.head? = some (patternEvent s) := by
  simp [update_events, h]

/-- Toggling one monitored bit is reported as the change of the byte and of that input. -/
theorem update_toggle_events (prev : Byte) {p : Nat} (h4 : 4 ≤ p) (h7 : p ≤ 7) :
    (update prev (prev ^^^ (0x01#8 <<< p))).events =
      [patternEvent (prev ^^^ (0x01#8 <<< p)), .input (BitVec.ofNat 4 (8 - p)) (!prev.getLsbD p)] := by
  have hpositions : reportedPositions prev (prev ^^^ (0x01#8 <<< p)) = [p] := by
    rw [reportedPositions, transitionSet_toggle prev h4 h7]
    interval_cases p <;> rfl
  have hlevel : (prev ^^^ (0x01#8 <<< p)).getLsbD p = !prev.getLsbD p := by
    have hset : (0x01#8 <<< p).getLsbD p = true := by interval_cases p <;> rfl
    rw [BitVec.getLsbD_xor, hset, Bool.xor_true]
  have hchanged : prev ^^^ (0x01#8 <<< p) ≠ prev := fun h => by simp [h] at hlevel
  rw [update_events, if_pos hchanged, hpositions, List.map_singleton, positionEvent, hlevel]
  rfl

/-- Settles O35: (a) is the pattern count of R115, the others read the report's closed form. -/
theorem updateProperties : Obligations.UpdateProperties := by
  refine ⟨fun prev s h => ⟨?_, rfl⟩, update_self_events, fun prev p h4 h7 => update_toggle_events prev h4 h7,
    fun prev x h => ⟨fun hnil => ?_, update_self_events x⟩, fun x h => update_events_head? h,
    update_self_events _, rfl⟩
  · exact (countP_pattern_update (fun _ _ _ => rfl) (fun _ _ => rfl) prev s).trans
      (if_pos fun hxor => h (BitVec.xor_eq_zero_iff.1 hxor).symm)
  · simpa [hnil] using update_events_head? h

/-! `COMPARE`. -/

/-- `COMPARE` on different bytes reports the pattern and records the change (R111). -/
theorem exec_compare_of_ne {s : State} (h : s.raw ≠ s.prev) :
    exec .compare s =
      .next ((((s.emit (patternEvent s.raw)).setChanged true).setMask monStartMask).goto Phase.scan) := by
  have hdiffers : wholeByteDiffers s.raw s.prev = true := decide_eq_true h
  rw [exec_phase _ _ rfl, phaseResult, hdiffers, State.emitIf_true]

/-- `COMPARE` on equal bytes records that nothing changed (R111). -/
theorem exec_compare_of_eq {s : State} (h : s.raw = s.prev) :
    exec .compare s = .next (((s.setChanged false).setMask monStartMask).goto Phase.scan) := by
  have hequal : wholeByteDiffers s.raw s.prev = false := decide_eq_false (not_not.2 h)
  rw [exec_phase _ _ rfl, phaseResult, hequal, State.emitIf_false]

/-- Settles O23: the two branches of `COMPARE`; the example takes the first and packs the pattern event's closed form. -/
theorem compareReportsAWholeByteDifference : Obligations.CompareReportsAWholeByteDifference := by
  refine ⟨fun s h => exec_compare_of_ne h, fun s h => exec_compare_of_eq h, fun s t hraw hprev ht => ?_⟩
  have hword : (patternEvent 0x8C#8).pack = 0x1144#16 := by rw [patternEvent_eq]; rfl
  cases (exec_compare_of_ne (by rw [hraw, hprev]; decide)).symm.trans ht
  simp [hraw, hword]

end Sys2Proof.Machine
end

section
/-! PROOFS. The decoder of a sample: its closed form, the low nibble it reads, its table of words (R73, R131). -/

namespace Sys2Proof.Machine

/-- The weights of the low three bits add up to `s[2:0]` (R73). -/
theorem toNat_mod_eight (s : Byte) :
    s.toNat % 8 = 4 * (s.getLsbD 2).toNat + 2 * (s.getLsbD 1).toNat + (s.getLsbD 0).toNat := by
  have hbit (k : Nat) : (s.getLsbD k).toNat = s.toNat / 2 ^ k % 2 := Nat.toNat_testBit s.toNat k
  rw [hbit, hbit, hbit]
  omega

/-- The closed form of `decode` with the magnitude as the number `s[2:0]` (R131). -/
theorem decodeSample_closedForm (s : Byte) :
    decodeSample s =
      { flag := s.getLsbD 3, str := [s.getLsbD 2, s.getLsbD 1, s.getLsbD 0], mag := s.toNat % 8 } := by
  rw [toNat_mod_eight, decodeSample_eq]

/-- Samples with equal low nibbles agree in each of its four bits. -/
theorem getLsbD_eq_of_lowNibble_eq {s t : Byte} (h : s &&& 0x0F#8 = t &&& 0x0F#8) {k : Nat} (hk : k < 4) :
    s.getLsbD k = t.getLsbD k := by
  have hmask : (0x0F#8).getLsbD k = true := by interval_cases k <;> rfl
  simpa only [BitVec.getLsbD_and, hmask, Bool.and_true] using congrArg (·.getLsbD k) h

/-- Bits 7 to 4 have no influence on `decode` (R131): its closed form reads the bits 3 to 0 only. -/
theorem decodeSample_eq_of_lowNibble_eq {s t : Byte} (h : s &&& 0x0F#8 = t &&& 0x0F#8) :
    decodeSample s = decodeSample t := by
  have hbit {k : Nat} (hk : k < 4) := getLsbD_eq_of_lowNibble_eq h hk
  rw [decodeSample_eq, decodeSample_eq, hbit (k := 3) (by decide), hbit (k := 2) (by decide),
    hbit (k := 1) (by decide), hbit (k := 0) (by decide)]

/-- Settles O32: the closed form, the nibble it reads, the table by the event's closed form, and the two examples as
instances of the closed form. -/
theorem decodeClosedFormAndTable : Obligations.DecodeClosedFormAndTable := by
  refine ⟨decodeSample_closedForm, fun s t h => decodeSample_eq_of_lowNibble_eq h, ?_,
    decodeSample_closedForm _, decodeSample_closedForm _⟩
  simp only [patternEvent_eq]
  rfl

end Sys2Proof.Machine
end

section
/-! PROOFS. The statements about the banner and the side effect of a change (43_side_effects_and_driver.md): how the sequencer
enters `BANNER` and `AUX_ASSERT` (R145, R147), the auxiliary line, and the unbounded wait for the melody (R153). -/

namespace Sys2Proof.Machine

/-! `BANNER`. -/

/-- No phase names `BANNER` as its successor (R145). -/
theorem phaseGraph_not_into_banner : ∀ e ∈ phaseGraph, e.2 ≠ 0x0#4 := by
  simp [phaseGraph]

/-- Settles O16: the effect by the phase's result, the return by the phase graph. -/
theorem bannerEmitsOnceAndStartsTheFirstCycle : Obligations.BannerEmitsOnceAndStartsTheFirstCycle := by
  refine ⟨fun s => exec_phase .banner s rfl, rfl, fun s t hb hr hst => ?_⟩
  cases (step_of_phase hr hb).symm.trans hst
  exact phaseGraph_not_into_banner _ (afterPhase_mem_phaseGraph s)

/-! The auxiliary line. -/

/-- Which phases write `aux` (R24). -/
theorem phaseResult_aux (s : State) (i : Instr) :
    (phaseResult s i).aux = if i = .auxAssert then true else if i = .auxRelease then false else s.aux := by
  cases i <;> simp [phaseResult, apply_ite State.aux]

/-- `AUX_ASSERT` is entered from `SCAN` only (R147). -/
theorem phaseGraph_into_auxAssert : ∀ e ∈ phaseGraph, e.2 = 0x8#4 → e.1 = 0x7#4 := by
  simp [phaseGraph]

/-- A `SCAN` goes to `AUX_ASSERT` exactly when it is the last of a cycle with a change (R113). -/
theorem scanSuccessor_eq_auxAssert_iff {s : State} (hp : s.phase = 0x7#4) :
    scanSuccessor s = 0x8#4 ↔ s.mask = 0x10#8 ∧ s.changed = true := by
  by_cases hlast : s.mask = 0x10#8
  · cases hchanged : s.changed <;> simp [scanSuccessor, lastScan, hlast, hchanged]
  · simp [scanSuccessor, lastScan, hlast, hp]

/-- Settles O26: the entry by the phase graph and the scan's successor; the line is 0 on entry because the invariant has it 0
at `SCAN` and `SCAN` does not write it. -/
theorem auxAssertRaisesAux : Obligations.AuxAssertRaisesAux := by
  refine ⟨fun s => exec_phase .auxAssert s rfl, fun s t hI hst hp => ?_⟩
  obtain ⟨-, rfl⟩ | ⟨-, ht⟩ := step_next_cases hI.bench hst
  · simp at hp
  · obtain rfl : t = s.afterPhase := ht
    have hscan : s.phase = 0x7#4 := phaseGraph_into_auxAssert _ (afterPhase_mem_phaseGraph s) hp
    have hsucc : scanSuccessor s = 0x8#4 := by simpa [State.afterPhase, hscan, phaseResult] using hp
    have haux : s.aux = false := by simpa [hscan] using hI.auxHigh
    obtain ⟨hmask, hchanged⟩ := (scanSuccessor_eq_auxAssert_iff hscan).1 hsucc
    exact ⟨hscan, hmask, hchanged, by simp [State.afterPhase, phaseResult_aux, hscan, haux]⟩

/-- Settles O27, by the phase's result. -/
theorem auxReleaseLowersAux : Obligations.AuxReleaseLowersAux := fun s => exec_phase .auxRelease s rfl

/-! The melody. -/

/-- Settles O28, by the phase's result. -/
theorem melodyStartRaisesTheRequest : Obligations.MelodyStartRaisesTheRequest := fun s => exec_phase .melodyStart s rfl

/-- `MELODY_WAIT` with `melody_done` = 1 takes the request back and leaves (R153). -/
theorem phaseResult_melodyWait_of_done {s : State} (h : s.inputs.melodyDone = true) :
    phaseResult s .melodyWait = (s.setMelodyReq false).goto Phase.store := if_pos h

/-- `MELODY_WAIT` with `melody_done` = 0 changes nothing (R153). -/
theorem phaseResult_melodyWait_of_not_done {s : State} (h : s.inputs.melodyDone = false) :
    phaseResult s .melodyWait = s := if_neg (by simp [h])

/-- While no answer comes, every execution of `MELODY_WAIT` leaves the block there, however many there are (R153). -/
theorem melodyWait_stays {s : State} (hp : s.phase = 0xD#4) (hb : s.benchWord = none) {n : Nat} (hn : NoReset s n)
    (hd : ∀ k, k < n → (s.inputsAt k).melodyDone = false) :
    ∃ u, Reach s n (List.replicate n .melodyWait) u ∧ u.phase = 0xD#4 ∧ SameButTimer u s := by
  induction n with
  | zero => exact ⟨s, Reach.refl hb, hp, by constructor <;> rfl⟩
  | succ n ih =>
    obtain ⟨t, ht, hpt, hsame⟩ := ih (hn.mono (by omega)) fun k hk => hd k (by omega)
    have hdone : t.inputs.melodyDone = false := by
      have hlevels : t.inputs = s.inputsAt n := ht.inputsAt 0
      rw [hlevels, hd n (by omega)]
    have hstep := Reach.one (ht.noReset (n := 1) hn).head ht.bench
    have estep : t.afterPhase = t.advance := by
      rw [State.afterPhase, hpt, decodePhase_melodyWait, phaseResult_melodyWait_of_not_done hdone]
    have hlast : SameButTimer t.afterPhase t := by rw [estep]; constructor <;> simp
    refine ⟨t.afterPhase, ?_, by simp [estep, hpt], hlast.trans hsame⟩
    simpa [hpt, List.replicate_succ'] using ht.trans hstep

/-- An answer in the `w`-th execution of `MELODY_WAIT` ends the wait with that step, and only the request is taken back
(R153). -/
theorem melodyWait_leaves {s : State} (hp : s.phase = 0xD#4) (hb : s.benchWord = none) {w : Nat} (hn : NoReset s w)
    (ha : Answers s 0 w) :
    ∃ u, Reach s w (List.replicate w .melodyWait) u ∧ u.phase = 0xE#4 ∧ SameButTimer u (s.setMelodyReq false) := by
  obtain ⟨hpos, hquiet, hanswer⟩ := ha
  obtain ⟨n, rfl⟩ : ∃ n, w = n + 1 := ⟨w - 1, by omega⟩
  simp only [Nat.zero_add, Nat.add_sub_cancel] at hquiet hanswer
  obtain ⟨t, ht, hpt, hsame⟩ :=
    melodyWait_stays hp hb (hn.mono (Nat.le_succ n)) fun k hk => hquiet k (by omega)
  have hdone : t.inputs.melodyDone = true := by
    have hlevels : t.inputs = s.inputsAt n := ht.inputsAt 0
    rw [hlevels, hanswer]
  have hstep := Reach.one (ht.noReset (n := 1) hn).head ht.bench
  have estep : t.afterPhase = ((t.setMelodyReq false).goto Phase.store).advance := by
    rw [State.afterPhase, hpt, decodePhase_melodyWait, phaseResult_melodyWait_of_done hdone]
  refine ⟨t.afterPhase, ?_, by simp [estep], ?_⟩
  · simpa [hpt, List.replicate_succ'] using ht.trans hstep
  · have hlast : SameButTimer t.afterPhase (t.setMelodyReq false) := by rw [estep]; constructor <;> simp
    exact hlast.trans { hsame with melodyReq := rfl }

/-- Settles O29: one execution by the phase's two results, the wait by `melodyWait_stays` and its end by
`melodyWait_leaves`. -/
theorem melodyWaitBlocksUntilDone : Obligations.MelodyWaitBlocksUntilDone := by
  refine ⟨fun s hd => ?_, fun s hd => ?_, fun s n hp hb hn hd => ?_, fun s w hp hb hn ha => ?_⟩
  · rw [exec_phase _ s rfl, phaseResult_melodyWait_of_done hd]
    rfl
  · rw [exec_phase _ s rfl, phaseResult_melodyWait_of_not_done hd]
  · obtain ⟨u, hu, hphase, same⟩ := melodyWait_stays hp hb hn hd
    exact ⟨u, hu.run, hphase, same.melodyReq, same.prev, same.raw, same.events⟩
  · obtain ⟨u, hu, hphase, same⟩ := melodyWait_leaves hp hb hn ha
    exact ⟨u, hu.run, hphase, same.melodyReq, same.prev, same.raw, same.events⟩

end Sys2Proof.Machine
end

section
/-! PROOFS. The statement about the reset edge (70_reset_and_hazards.md, R180). -/

namespace Sys2Proof.Machine

/-- Settles O9: no word is offered while `rst` = 1, the step is the reset edge by `step_of_rst`, and the environment's move
after it leaves the registers and the events as they are. -/
theorem resetEdgeFromAnyPhase : Obligations.ResetEdgeFromAnyPhase := by
  intro s hr
  have hquiet : s.outputs.evValid = false := by simp [State.offeredWord_of_rst hr]
  refine ⟨hquiet, s.resetEdge.advance, step_of_rst hr, ?_⟩
  simp [sentinel]

end Sys2Proof.Machine
end

section
/-! PROOFS. The two directions of the encodings (R74 to R79): what the decoder reads from an event word, kind by kind,
and that decoder and encoder undo each other. -/

namespace Sys2Proof

/-! The kind of an event word. -/

/-- A word that matches under a mask covering the kind field has the match's kind (R75). -/
theorem kind_eq_of_masked {w mask mtch : EventWord} (h : w &&& mask = mtch) (hmask : mask.extractLsb' 12 4 = 0xF#4) :
    w.extractLsb' 12 4 = mtch.extractLsb' 12 4 := by
  rw [← h, BitVec.extractLsb'_and, hmask, show (0xF#4) = BitVec.allOnes 4 from rfl, BitVec.and_allOnes]

/-- The kind field as a number (R75). -/
theorem toNat_kind (w : EventWord) : (w.extractLsb' 12 4).toNat = w.toNat / 4096 := by
  have hw := w.isLt
  rw [BitVec.extractLsb'_toNat, Nat.shiftRight_eq_div_pow]
  omega

/-- A matching word's kind, as a number. -/
theorem toNat_div_of_masked {w mask mtch : EventWord} (h : w &&& mask = mtch) (hmask : mask.extractLsb' 12 4 = 0xF#4) :
    w.toNat / 4096 = mtch.toNat / 4096 := by
  rw [← toNat_kind, ← toNat_kind, kind_eq_of_masked h hmask]

theorem kind_of_banner {w : EventWord} (h : w &&& 0xFFFF#16 = 0x0000#16) : w.toNat / 4096 = 0 :=
  toNat_div_of_masked h rfl

theorem kind_of_pattern {w : EventWord} (h : w &&& 0xFE88#16 = 0x1000#16) : w.toNat / 4096 = 1 :=
  toNat_div_of_masked h rfl

theorem kind_of_input {w : EventWord} (h : w &&& 0xF0EF#16 = 0x2000#16) : w.toNat / 4096 = 2 :=
  toNat_div_of_masked h rfl

/-! The decoder, kind by kind. The three kinds exclude each other, so the order of the decoder's tests does not
matter. -/

theorem decodeEvent_of_banner {w : EventWord} (h : w &&& 0xFFFF#16 = 0x0000#16) : decodeEvent w = .ok .evBanner :=
  if_pos h

theorem decodeEvent_of_pattern {w : EventWord} (h : w &&& 0xFE88#16 = 0x1000#16) :
    decodeEvent w = .ok (.evPattern (w.getLsbD 8) (w.extractLsb' 4 3) (w.extractLsb' 0 3)) := by
  have hkind := kind_of_pattern h
  rw [decodeEvent, if_neg fun hb => by have := kind_of_banner hb; omega, if_pos h]

theorem decodeEvent_of_input {w : EventWord} (h : w &&& 0xF0EF#16 = 0x2000#16) :
    decodeEvent w = .ok (.evInput (w.extractLsb' 8 4) (w.getLsbD 4)) := by
  have hkind := kind_of_input h
  rw [decodeEvent, if_neg fun hb => by have := kind_of_banner hb; omega,
    if_neg fun hp => by have := kind_of_pattern hp; omega, if_pos h]

theorem decodeEvent_of_reservedKind {w : EventWord} (h : 3 ≤ w.toNat / 4096) :
    decodeEvent w = .error (.reservedKind (w.extractLsb' 12 4)) := by
  rw [decodeEvent, if_neg fun hb => by have := kind_of_banner hb; omega,
    if_neg fun hp => by have := kind_of_pattern hp; omega, if_neg fun hi => by have := kind_of_input hi; omega,
    if_pos (by rwa [toNat_kind])]

/-- The inversion lemma of the event decoder: a word it accepts is of one of the three kinds, and read with its
fields. -/
theorem decodeEvent_ok_cases {w : EventWord} {i : Instr} (h : decodeEvent w = .ok i) :
    (w &&& 0xFFFF#16 = 0x0000#16 ∧ i = .evBanner) ∨
      (w &&& 0xFE88#16 = 0x1000#16 ∧ i = .evPattern (w.getLsbD 8) (w.extractLsb' 4 3) (w.extractLsb' 0 3)) ∨
      (w &&& 0xF0EF#16 = 0x2000#16 ∧ i = .evInput (w.extractLsb' 8 4) (w.getLsbD 4)) := by
  unfold decodeEvent at h
  split_ifs at h with hb hp hi
  · exact .inl ⟨hb, by simpa using h.symm⟩
  · exact .inr (.inl ⟨hp, by simpa using h.symm⟩)
  · exact .inr (.inr ⟨hi, by simpa using h.symm⟩)

theorem decodeEvent_eq_banner_iff {w : EventWord} :
    decodeEvent w = .ok .evBanner ↔ w &&& 0xFFFF#16 = 0x0000#16 := by
  refine ⟨fun h => ?_, decodeEvent_of_banner⟩
  simpa using decodeEvent_ok_cases h

theorem decodeEvent_eq_pattern_iff {w : EventWord} :
    decodeEvent w = .ok (.evPattern (w.getLsbD 8) (w.extractLsb' 4 3) (w.extractLsb' 0 3)) ↔
      w &&& 0xFE88#16 = 0x1000#16 := by
  refine ⟨fun h => ?_, decodeEvent_of_pattern⟩
  simpa using decodeEvent_ok_cases h

theorem decodeEvent_eq_input_iff {w : EventWord} :
    decodeEvent w = .ok (.evInput (w.extractLsb' 8 4) (w.getLsbD 4)) ↔ w &&& 0xF0EF#16 = 0x2000#16 := by
  refine ⟨fun h => ?_, decodeEvent_of_input⟩
  simpa using decodeEvent_ok_cases h

/-- A field of a word as a number: shifted down and cut to its width. -/
theorem extractLsb'_eq_ofNat (w : EventWord) (start len : Nat) :
    w.extractLsb' start len = BitVec.ofNat len (w.toNat / 2 ^ start) := by
  rw [BitVec.extractLsb', Nat.shiftRight_eq_div_pow]

/-- Settles O2: the three kinds by their decoder equations, the fields as numbers, the reserved kinds by theirs. -/
theorem eventWordsDecodeByMatchAndMask : Obligations.EventWordsDecodeByMatchAndMask := by
  intro w
  have hstr : BitVec.ofNat 3 (w.toNat / 16) = w.extractLsb' 4 3 := (extractLsb'_eq_ofNat w 4 3).symm
  have hmag : BitVec.ofNat 3 w.toNat = w.extractLsb' 0 3 := by
    rw [extractLsb'_eq_ofNat w 0 3, Nat.pow_zero, Nat.div_one]
  have hindex : BitVec.ofNat 4 (w.toNat / 256) = w.extractLsb' 8 4 := (extractLsb'_eq_ofNat w 8 4).symm
  rw [hstr, hmag, hindex]
  exact ⟨decodeEvent_eq_banner_iff.symm, decodeEvent_eq_pattern_iff.symm, decodeEvent_eq_input_iff.symm,
    fun h => ⟨_, decodeEvent_of_reservedKind h⟩⟩

/-! The encoder's fields, read back by the decoder's masks and places (R76, R77). -/

@[simp] theorem getElem_bit16 (b : Bool) (k : Nat) (hk : k < 16) : (bit16 b)[k] = (b && decide (k = 0)) := by
  cases b <;> simp [bit16]

theorem pack_pattern_masked (flag : Bool) (str mag : BitVec 3) :
    (Event.pattern flag str mag).pack &&& 0xFE88#16 = 0x1000#16 := by
  apply BitVec.eq_of_getLsbD_eq
  intro k hk
  interval_cases k <;> simp [Event.pack]

theorem pack_pattern_flag (flag : Bool) (str mag : BitVec 3) :
    (Event.pattern flag str mag).pack.getLsbD 8 = flag := by
  simp [Event.pack]

theorem pack_pattern_str (flag : Bool) (str mag : BitVec 3) :
    (Event.pattern flag str mag).pack.extractLsb' 4 3 = str := by
  apply BitVec.eq_of_getLsbD_eq
  intro k hk
  interval_cases k <;> simp [Event.pack]

theorem pack_pattern_mag (flag : Bool) (str mag : BitVec 3) :
    (Event.pattern flag str mag).pack.extractLsb' 0 3 = mag := by
  apply BitVec.eq_of_getLsbD_eq
  intro k hk
  interval_cases k <;> simp [Event.pack]

theorem pack_input_masked (index : BitVec 4) (level : Bool) :
    (Event.input index level).pack &&& 0xF0EF#16 = 0x2000#16 := by
  apply BitVec.eq_of_getLsbD_eq
  intro k hk
  interval_cases k <;> simp [Event.pack]

theorem pack_input_index (index : BitVec 4) (level : Bool) :
    (Event.input index level).pack.extractLsb' 8 4 = index := by
  apply BitVec.eq_of_getLsbD_eq
  intro k hk
  interval_cases k <;> simp [Event.pack]

theorem pack_input_level (index : BitVec 4) (level : Bool) : (Event.input index level).pack.getLsbD 4 = level := by
  simp [Event.pack]

theorem decodeEvent_pack_pattern (flag : Bool) (str mag : BitVec 3) :
    decodeEvent (Event.pattern flag str mag).pack = .ok (.evPattern flag str mag) := by
  rw [decodeEvent_of_pattern (pack_pattern_masked flag str mag), pack_pattern_flag, pack_pattern_str, pack_pattern_mag]

theorem decodeEvent_pack_input (index : BitVec 4) (level : Bool) :
    decodeEvent (Event.input index level).pack = .ok (.evInput index level) := by
  rw [decodeEvent_of_input (pack_input_masked index level), pack_input_index, pack_input_level]

/-- Settles O3: a phase by the table, an event word by what its mask and its places read back. -/
theorem decodeOfEncode : Obligations.DecodeOfEncode := by
  intro i
  cases i with
  | evPattern flag str mag => exact decodeEvent_pack_pattern flag str mag
  | evInput index level => exact decodeEvent_pack_input index level
  | _ => rfl

/-! No bit of an accepted word is dropped: the bits outside the fields are the ones the match fixes. -/

theorem pack_of_pattern_masked {w : EventWord} (h : w &&& 0xFE88#16 = 0x1000#16) :
    (Event.pattern (w.getLsbD 8) (w.extractLsb' 4 3) (w.extractLsb' 0 3)).pack = w := by
  apply BitVec.eq_of_getLsbD_eq
  intro k hk
  have hbit : (w &&& 0xFE88#16).getLsbD k = (0x1000#16).getLsbD k := by rw [h]
  clear h
  interval_cases k <;> simp_all [Event.pack]

theorem pack_of_input_masked {w : EventWord} (h : w &&& 0xF0EF#16 = 0x2000#16) :
    (Event.input (w.extractLsb' 8 4) (w.getLsbD 4)).pack = w := by
  apply BitVec.eq_of_getLsbD_eq
  intro k hk
  have hbit : (w &&& 0xF0EF#16).getLsbD k = (0x2000#16).getLsbD k := by rw [h]
  clear h
  interval_cases k <;> simp_all [Event.pack]

theorem encode_decodePhase (c : PhaseCode) : encode (decodePhase c) = .phase4 c := by
  revert c; decide

/-- Settles O4: a phase by the table, an event word by the three kinds the decoder accepts. -/
theorem encodeOfDecode : Obligations.EncodeOfDecode := by
  intro c i h
  cases c with
  | phase4 c =>
    obtain rfl : decodePhase c = i := by simpa [decode] using h
    exact encode_decodePhase c
  | event16 w =>
    obtain ⟨hw, rfl⟩ | ⟨hw, rfl⟩ | ⟨hw, rfl⟩ := decodeEvent_ok_cases h
    · rw [show (0xFFFF#16) = BitVec.allOnes 16 from rfl, BitVec.and_allOnes] at hw
      rw [hw]
      rfl
    · exact congrArg Code.event16 (pack_of_pattern_masked hw)
    · exact congrArg Code.event16 (pack_of_input_masked hw)

end Sys2Proof

namespace Sys2Proof.Machine

/-! A placed word, as the next step finds it. -/

@[simp] theorem State.placeWord_rst (s : State) (nbits w : Nat) : (s.placeWord nbits w).inputs.rst = false := by
  unfold State.placeWord
  split_ifs <;> rfl

theorem State.placeWord_phase {nbits : Nat} (h : nbits ≤ 8) (s : State) (w : Nat) :
    (s.placeWord nbits w).phase = BitVec.ofNat 4 w ∧ (s.placeWord nbits w).benchWord = none := by
  simp [State.placeWord, h]

theorem State.placeWord_benchWord {nbits : Nat} (h : ¬ nbits ≤ 8) (s : State) (w : Nat) :
    (s.placeWord nbits w).benchWord = some (BitVec.ofNat 16 w) := by
  simp [State.placeWord, h]

theorem State.fetch_of_phase {s : State} (hb : s.benchWord = none) : s.fetch = .ok (decodePhase s.phase) := by
  rw [State.fetch, hb]

theorem State.fetch_of_bench {s : State} {w : EventWord} (hb : s.benchWord = some w) :
    s.fetch = decode (.event16 w) := by
  rw [State.fetch, hb]
  rfl

/-- Whatever code the number stands for in its format, the placed number is fetched as that code is decoded. -/
theorem State.fetch_placeWord {nbits w : Nat} {c : Code} (h : codeOfNat nbits w = .ok c) (s : State) :
    (s.placeWord nbits w).fetch = decode c := by
  unfold codeOfNat at h
  split_ifs at h with hn
  · obtain rfl : Code.phase4 (BitVec.ofNat 4 w) = c := by simpa using h
    obtain ⟨hphase, hbench⟩ := State.placeWord_phase hn s w
    rw [State.fetch_of_phase hbench, hphase]
    rfl
  · obtain rfl : Code.event16 (BitVec.ofNat 16 w) = c := by simpa using h
    exact State.fetch_of_bench (State.placeWord_benchWord hn s w)

/-- The step with `rst` = 0 and something fetched. -/
theorem step_of_fetch {s : State} {i : Instr} (hr : s.inputs.rst = false) (hf : s.fetch = .ok i) :
    step s = thenAdvance (exec i s) := by
  simp [step, hr, hf]

/-- The step with `rst` = 0 and a bench word that is no instruction (U12). -/
theorem step_of_rejected {s : State} {w : EventWord} {r : Reject} (hr : s.inputs.rst = false)
    (hb : s.benchWord = some w) (hd : decode (.event16 w) = .error r) : step s = .refused (.reservedEventWord w) := by
  simp [step, hr, State.fetch_of_bench hb, hd, hb]

theorem decodeTableWord_eq_some {nbits w : Nat} {i : Instr} (h : decodeTableWord nbits w = some i) :
    ∃ c, codeOfNat nbits w = .ok c ∧ decode c = .ok i := by
  unfold decodeTableWord at h
  split at h
  · simp at h
  · next c hc =>
    split at h
    · simp at h
    · next j hj => exact ⟨c, hc, by simpa [hj] using h⟩

/-- Settles O6: a reserved kind by the decoder, a rejected word by the step, and fields that are never emitted by
`deliver`. -/
theorem reservedEventWordsAreRefused : Obligations.ReservedEventWordsAreRefused := by
  refine ⟨fun w h => ?_, fun s w r h => ?_, fun s flag str mag h => ?_, fun s index level h => ?_⟩
  · have hkind : w.extractLsb' 12 4 = BitVec.ofNat 4 (w.toNat / 4096) := extractLsb'_eq_ofNat w 12 4
    rw [← hkind]
    exact decodeEvent_of_reservedKind h
  · have hbench : (s.withFetchWord 16 w.toNat).benchWord = some w := by
      simp [State.withFetchWord, State.placeWord_benchWord]
    exact step_of_rejected (State.placeWord_rst s 16 w.toNat) hbench h
  · have hwf : (Event.pattern flag str mag).wf = false := by simpa [← Bool.not_eq_true] using h
    exact (exec_event _ _ s rfl).trans (deliver_reserved s _ hwf)
  · have hwf : (Event.input index level).wf = false := by
      rw [← Bool.not_eq_true, Event.wf_input]
      omega
    exact (exec_event _ _ s rfl).trans (deliver_reserved s _ hwf)

/-- Settles O7: the step by `step_of_fetch`, what it fetches with and without a bench word, and a placed word by
`State.fetch_placeWord`. -/
theorem stepRunsTheFetchedInstruction : Obligations.StepRunsTheFetchedInstruction := by
  refine ⟨fun s i hr hf => step_of_fetch hr hf, fun s hb => State.fetch_of_phase hb,
    fun s w hb => State.fetch_of_bench hb, fun s nbits w i h => ⟨State.placeWord_rst s nbits w, ?_⟩⟩
  obtain ⟨c, hc, hi⟩ := decodeTableWord_eq_some h
  exact (State.fetch_placeWord hc s).trans hi

/-- Settles O31: the three event instructions deliver an event that is well formed. -/
theorem eventWordsDeliverTheirEvent : Obligations.EventWordsDeliverTheirEvent := by
  refine ⟨fun s => ?_, fun s flag v => ?_, fun s index level h1 h4 => ?_⟩
  · exact (exec_event .evBanner .banner s rfl).trans (deliver_emittable s _ rfl)
  · exact (exec_event _ _ s rfl).trans (deliver_emittable s _ ((Event.wf_pattern flag v v).2 rfl))
  · exact (exec_event _ _ s rfl).trans (deliver_emittable s _ ((Event.wf_input index level).2 ⟨h1, h4⟩))

end Sys2Proof.Machine
end

section
/-! PROOFS. One step in fields: what each phase leaves in each register, every condition pushed down to the register
it decides (R24, R156). The statements about one execution, about who writes and who reads a register, and the phase
graph are read off it. -/

namespace Sys2Proof.Machine

/-! The phases as updates of fields. -/

/-- A wait as an update of `phase` and `timer` (`State.waitThen_eq`). -/
def State.waitFields (s : State) (q : PhaseCode) : State :=
  { s with
    phase := if s.timer = 0#Config.timerWidth then q else s.phase
    timer := if s.timer = 0#Config.timerWidth then s.timer else s.timer - 1#Config.timerWidth }

theorem State.waitThen_eq (s : State) (q : PhaseCode) : s.waitThen q = s.waitFields q := by
  apply State.ext_fields <;> simp [State.waitFields]

theorem State.emitIf_eq (s : State) (b : Bool) (e : Event) :
    s.emitIf b e = { s with events := if b then s.events ++ [e] else s.events } := by
  cases b <;> rfl

/-- `phaseResult` with the conditions inside the fields (`phaseResult_eq`). -/
def phaseFields (s : State) : Instr → State
  | .banner => { s with events := s.events ++ [.banner], phase := 0x1#4 }
  | .loadAssert => { s with loadN := false, timer := Config.tLoad, phase := 0x2#4 }
  | .loadHold => s.waitFields 0x3#4
  | .loadRelease => { s with loadN := true, bitcnt := 0#3, tx := dummyByte, phase := 0x4#4 }
  | .shiftSample => { s with raw := shiftInLow s.raw s.inputs.serIn, sck := true, phase := 0x5#4 }
  | .shiftAdvance =>
    { s with
      sck := false
      tx := shiftInLow s.tx false
      bitcnt := s.bitcnt + 1#3
      phase := if lastBit s.bitcnt then 0x6#4 else 0x4#4 }
  | .compare =>
    { s with
      events := if wholeByteDiffers s.raw s.prev then s.events ++ [patternEvent s.raw] else s.events
      changed := wholeByteDiffers s.raw s.prev
      mask := monStartMask
      phase := 0x7#4 }
  | .scan =>
    { s with
      events := if bitDiffers s.raw s.prev s.mask then s.events ++ [inputEvent s.raw s.mask] else s.events
      mask := s.mask >>> 1
      phase := scanSuccessor s }
  | .auxAssert => { s with aux := true, timer := Config.tAuxHold, phase := 0x9#4 }
  | .auxHold => s.waitFields 0xA#4
  | .auxRelease => { s with aux := false, timer := Config.tAuxPause, phase := 0xB#4 }
  | .auxPause => s.waitFields 0xC#4
  | .melodyStart => { s with melodyReq := true, phase := 0xD#4 }
  | .melodyWait =>
    { s with
      melodyReq := if s.inputs.melodyDone then false else s.melodyReq
      phase := if s.inputs.melodyDone then 0xE#4 else s.phase }
  | .store => { s with prev := s.raw, timer := Config.tPoll, phase := 0xF#4 }
  | .pollWait => s.waitFields 0x1#4
  | _ => s

theorem phaseResult_eq (s : State) (i : Instr) : phaseResult s i = phaseFields s i := by
  cases i with
  | loadHold | auxHold | auxPause | pollWait => exact s.waitThen_eq _
  | compare | scan => simp only [phaseResult, State.emitIf_eq]; rfl
  | melodyWait => cases h : s.inputs.melodyDone <;> simp [phaseResult, phaseFields, h, State.setMelodyReq, State.goto]
  | _ => rfl

/-- The step of a phase, in fields. -/
theorem State.afterPhase_eq (s : State) : s.afterPhase = (phaseFields s (decodePhase s.phase)).advance := by
  rw [State.afterPhase, phaseResult_eq]

/-- The inversion lemma of `exec`: a phase answers its fields, an event word adds its event to the channel. -/
theorem exec_next_cases {i : Instr} {s t : State} (h : exec i s = .next t) :
    (i.isPhase = true ∧ t = phaseFields s i) ∨ (∃ e, i.event? = some e ∧ e.wf = true ∧ t = s.emit e) := by
  cases he : i.event? with
  | none =>
    have hphase : i.isPhase = true := by simp [Instr.isPhase, he]
    rw [exec_phase i s hphase, phaseResult_eq] at h
    exact .inl ⟨hphase, by simpa using h.symm⟩
  | some e => exact .inr ⟨e, rfl, deliver_next ((exec_event i e s he).symm.trans h)⟩

/-! One execution. -/

/-- Settles O19: the four waiting phases do the shared wait. -/
theorem waitingPhasesCountDownOrLeave : Obligations.WaitingPhasesCountDownOrLeave := by
  intro i q hiq s
  have hwait : exec i s = .next (s.waitThen q) := by
    simp only [List.mem_cons, Prod.mk.injEq, List.not_mem_nil, or_false] at hiq
    rcases hiq with ⟨rfl, rfl⟩ | ⟨rfl, rfl⟩ | ⟨rfl, rfl⟩ | ⟨rfl, rfl⟩ <;> rfl
  exact ⟨fun h => hwait.trans (by rw [State.waitThen_zero s q h]; rfl),
    fun h => hwait.trans (by rw [State.waitThen_nonzero s q h]; rfl)⟩

/-- A shift by one with a bit entering below, as a shift and an `or` (R96, R97). -/
theorem shiftInLow_eq (v : Byte) (b : Bool) : shiftInLow v b = (v <<< 1) ||| (if b = true then 1#8 else 0#8) := by
  apply BitVec.eq_of_getLsbD_eq
  intro k hk
  interval_cases k <;> cases b <;> simp [shiftInLow]

/-- Settles O21: the two halves of a bit, with `shiftInLow_eq` for their shifts. -/
theorem shiftPhasesMoveOneBit : Obligations.ShiftPhasesMoveOneBit := by
  refine ⟨fun s => ?_, fun s => ?_⟩
  · rw [exec_phase _ s rfl, phaseResult_eq, phaseFields, shiftInLow_eq]
  · have htx : shiftInLow s.tx false = s.tx <<< 1 := by simp [shiftInLow_eq]
    rw [exec_phase _ s rfl, phaseResult_eq, phaseFields, htx]
    simp [lastBit]

/-- Settles O24: the scan's fields, with its test and its event read at one position (`IsMonitored`). -/
theorem scanReportsOneMonitoredBit : Obligations.ScanReportsOneMonitoredBit := by
  intro s p h
  have hp : IsMonitored p s.mask := h
  rw [exec_phase _ s rfl, phaseResult_eq, phaseFields, hp.bitDiffers, hp.inputEvent]
  simp [scanSuccessor, lastScan]

/-- Settles O30, by the phase's result. -/
theorem storeOverwritesPrev : Obligations.StoreOverwritesPrev := fun s => exec_phase .store s rfl

/-! The step. -/

/-- Settles O13: every phase answers its result, and a step is a reset edge or a phase. -/
theorem everyStepHasANextState : Obligations.EveryStepHasANextState := by
  refine ⟨fun i s h => ⟨_, exec_phase i s h⟩, fun s hb => ?_⟩
  cases hr : s.inputs.rst with
  | true => exact ⟨_, step_of_rst hr⟩
  | false => exact ⟨_, step_of_phase hr hb⟩

/-- Settles O8: the two cases of the stimulus. -/
theorem environmentMovesOnlyTheInputs : Obligations.EnvironmentMovesOnlyTheInputs := by
  intro s
  cases h : s.stimulus <;> simp [State.advance, h, freeInputs]

/-- Settles O10: the step is the reset edge, followed by the environment's move. -/
theorem resetEdgeLeavesSixRegistersFree : Obligations.ResetEdgeLeavesSixRegistersFree := by
  intro s hr
  refine ⟨s.resetEdge.advance, step_of_rst hr, ?_⟩
  simp

/-- Where a `SCAN` goes, as R156's table puts it. -/
theorem scanSuccessor_eq {s : State} (hp : s.phase = 0x7#4) :
    scanSuccessor s = if s.mask ≠ 0x10#8 then 0x7#4 else if s.changed = true then 0x8#4 else 0xE#4 := by
  by_cases hlast : s.mask = 0x10#8 <;> simp [scanSuccessor, lastScan, hlast, hp]

/-- Settles O14: a reset edge leads to `BANNER`, and each phase's row of the table is the `phase` field it leaves. -/
theorem phaseTransitionGraph : Obligations.PhaseTransitionGraph := by
  intro s t hb hst
  obtain ⟨hr, rfl⟩ | ⟨hr, ht⟩ := step_next_cases hb hst
  · exact ⟨fun _ => by simp, fun hr' => absurd hr (by simp [hr'])⟩
  · obtain rfl : t = s.afterPhase := ht
    refine ⟨fun hr' => absurd hr' (by simp [hr]), fun _ => ?_⟩
    rw [State.afterPhase_eq, State.advance_phase]
    refine ⟨?_, ?_, ?_, ?_, ?_, ?_, ?_, ?_, ?_, ?_, ?_, ?_, ?_, ?_, ?_, ?_⟩ <;> intro hp <;>
      simp [hp, phaseFields, State.waitFields, lastBit, scanSuccessor_eq]

/-! Writers. -/

/-- Settles O47: an event word writes the channel only; for a phase, every register but the listed ones is the same
field of `phaseFields`. -/
theorem registersAreWrittenOnlyByTheirPhases : Obligations.RegistersAreWrittenOnlyByTheirPhases := by
  intro i s t h
  obtain ⟨hphase, rfl⟩ | ⟨e, he, -, rfl⟩ := exec_next_cases h
  · cases i <;> simp_all [phaseFields, State.waitFields, Instr.isPhase, Instr.event?]
  · simp [Instr.isPhase, he]

/-! Readers. -/

/-- A change `f` of the state that an instruction neither sees nor undoes stays beside its effect. -/
theorem exec_commutes {i : Instr} {s t : State} (f : State → State) (h : exec i s = .next t)
    (hemit : ∀ e, (f s).emit e = f (s.emit e)) (hphase : phaseFields (f s) i = f (phaseFields s i)) :
    exec i (f s) = .next (f t) := by
  obtain ⟨hi, rfl⟩ | ⟨e, he, hwf, rfl⟩ := exec_next_cases h
  · rw [exec_phase i _ hi, phaseResult_eq, hphase]
  · rw [exec_event i e _ he, deliver_emittable _ e hwf, hemit]

/-- Settles O48: for an instruction that is not listed, the fields after it are the same expressions with the register
or the input replaced, so the change commutes with it; the last scan alone reads `changed`. -/
theorem registersAndInputsAreReadOnlyWhereListed : Obligations.RegistersAndInputsAreReadOnlyWhereListed := by
  intro i s t h
  refine ⟨?raw, ?prev, ?prevOfStore, ?tx, ?mask, ?bitcnt, ?changed, ?changedOfScan, ?timer, ?loadN, ?sck, ?aux,
    ?melodyReq, ?serIn, ?melodyDone⟩
  case raw =>
    refine fun hi v => exec_commutes (fun u => { u with raw := v }) h (fun _ => rfl) ?_
    cases i with
    | shiftSample | compare | scan | store => simp at hi
    | _ => rfl
  case prev =>
    refine fun hi v => exec_commutes (fun u => { u with prev := v }) h (fun _ => rfl) ?_
    cases i with
    | compare | scan | store => simp at hi
    | _ => rfl
  case prevOfStore =>
    rintro rfl v
    rw [← h]
    rfl
  case tx =>
    refine fun hi v => exec_commutes (fun u => { u with tx := v }) h (fun _ => rfl) ?_
    cases i with
    | loadRelease | shiftAdvance => simp at hi
    | _ => rfl
  case mask =>
    refine fun hi v => exec_commutes (fun u => { u with mask := v }) h (fun _ => rfl) ?_
    cases i with
    | compare | scan => simp at hi
    | _ => rfl
  case bitcnt =>
    refine fun hi v => exec_commutes (fun u => { u with bitcnt := v }) h (fun _ => rfl) ?_
    cases i with
    | loadRelease | shiftAdvance => simp at hi
    | _ => rfl
  case changed =>
    refine fun hi v => exec_commutes (fun u => { u with changed := v }) h (fun _ => rfl) ?_
    cases i with
    | compare | scan => simp at hi
    | _ => rfl
  case changedOfScan =>
    rintro rfl hmask v
    have hmore : lastScan s.mask = false := by simpa [lastScan] using hmask
    refine exec_commutes (fun u => { u with changed := v }) h (fun _ => rfl) ?_
    simp [phaseFields, scanSuccessor, hmore]
  case timer =>
    refine fun hi v => exec_commutes (fun u => { u with timer := v }) h (fun _ => rfl) ?_
    cases i with
    | loadAssert | auxAssert | auxRelease | store | loadHold | auxHold | auxPause | pollWait => simp at hi
    | _ => rfl
  case loadN =>
    refine fun hi v => exec_commutes (fun u => { u with loadN := v }) h (fun _ => rfl) ?_
    cases i with
    | loadAssert | loadRelease => simp at hi
    | _ => rfl
  case sck =>
    refine fun hi v => exec_commutes (fun u => { u with sck := v }) h (fun _ => rfl) ?_
    cases i with
    | shiftSample | shiftAdvance => simp at hi
    | _ => rfl
  case aux =>
    refine fun hi v => exec_commutes (fun u => { u with aux := v }) h (fun _ => rfl) ?_
    cases i with
    | auxAssert | auxRelease => simp at hi
    | _ => rfl
  case melodyReq =>
    refine fun hi v => exec_commutes (fun u => { u with melodyReq := v }) h (fun _ => rfl) ?_
    cases i with
    | melodyStart | melodyWait => simp at hi
    | _ => rfl
  case serIn =>
    refine fun hi v => exec_commutes (fun u => { u with inputs := { s.inputs with serIn := v } }) h (fun _ => rfl) ?_
    cases i with
    | shiftSample => simp at hi
    | _ => rfl
  case melodyDone =>
    refine fun hi v =>
      exec_commutes (fun u => { u with inputs := { s.inputs with melodyDone := v } }) h (fun _ => rfl) ?_
    cases i with
    | melodyWait => simp at hi
    | _ => rfl

end Sys2Proof.Machine
end

section
/-! PROOFS. The invariant: each of its clauses after a phase step, from the edges of the phase graph that lead to the
phases the clause speaks of; the reset edge; and what follows at the start of a cycle (R40). -/

namespace Sys2Proof

@[simp] theorem decodePhase_eq_auxAssert_iff {c : PhaseCode} : decodePhase c = .auxAssert ↔ c = 0x8#4 := by
  revert c; decide

@[simp] theorem decodePhase_eq_auxRelease_iff {c : PhaseCode} : decodePhase c = .auxRelease ↔ c = 0xA#4 := by
  revert c; decide

@[simp] theorem decodePhase_eq_melodyStart_iff {c : PhaseCode} : decodePhase c = .melodyStart ↔ c = 0xC#4 := by
  revert c; decide

@[simp] theorem decodePhase_eq_melodyWait_iff {c : PhaseCode} : decodePhase c = .melodyWait ↔ c = 0xD#4 := by
  revert c; decide

end Sys2Proof

namespace Sys2Proof.Machine

/-! The phases from which the phases of a clause are entered (R156). -/

theorem phaseGraph_into_auxPulse :
    ∀ e ∈ phaseGraph, (e.2 = 0x9#4 ∨ e.2 = 0xA#4) ↔ (e.1 = 0x8#4 ∨ e.1 = 0x9#4) := by
  simp [phaseGraph]

theorem phaseGraph_into_melodyWait : ∀ e ∈ phaseGraph, e.2 = 0xD#4 → e.1 = 0xC#4 ∨ e.1 = 0xD#4 := by
  simp [phaseGraph]

theorem phaseGraph_into_scan : ∀ e ∈ phaseGraph, e.2 = 0x7#4 → e.1 = 0x6#4 ∨ e.1 = 0x7#4 := by
  simp [phaseGraph]

theorem phaseGraph_into_pollWait : ∀ e ∈ phaseGraph, e.2 = 0xF#4 → e.1 = 0xE#4 ∨ e.1 = 0xF#4 := by
  simp [phaseGraph]

/-- The phases of the side effect, `AUX_ASSERT` to `MELODY_WAIT` (R146). -/
def sideEffectCodes : List PhaseCode := [0x8#4, 0x9#4, 0xA#4, 0xB#4, 0xC#4, 0xD#4]

/-- The side effect is entered from a `SCAN`, by `AUX_ASSERT`. -/
theorem phaseGraph_into_sideEffect :
    ∀ e ∈ phaseGraph, e.2 ∈ sideEffectCodes → (e.1 = 0x7#4 ∧ e.2 = 0x8#4) ∨ e.1 ∈ sideEffectCodes := by
  simp [phaseGraph, sideEffectCodes]

/-- The phases that use `changed`, from `SCAN` to `STORE`, are entered from `COMPARE`, and left with `STORE`. -/
theorem phaseGraph_into_update :
    ∀ e ∈ phaseGraph, e.2 ∈ 0x7#4 :: sideEffectCodes ++ [0xE#4] → e.1 = 0x6#4 ∨ e.1 ∈ 0x7#4 :: sideEffectCodes := by
  simp [phaseGraph, sideEffectCodes]

/-! Between `COMPARE` and `STORE` the sample, the previous sample and their comparison stand still. -/

theorem afterPhase_update_registers {s : State} (h : s.phase ∈ 0x7#4 :: sideEffectCodes) :
    s.afterPhase.changed = s.changed ∧ s.afterPhase.raw = s.raw ∧ s.afterPhase.prev = s.prev := by
  simp only [sideEffectCodes, List.mem_cons, List.not_mem_nil, or_false] at h
  rw [State.afterPhase_eq]
  rcases h with h | h | h | h | h | h | h <;> simp [h, phaseFields, State.waitFields]

/-- Which phases write `melody_req` (R24). -/
theorem phaseResult_melodyReq (s : State) (i : Instr) :
    (phaseResult s i).melodyReq =
      if i = .melodyStart then true
      else if i = .melodyWait ∧ s.inputs.melodyDone = true then false else s.melodyReq := by
  cases i <;> simp [phaseResult, apply_ite State.melodyReq]

/-! The waits. -/

/-- A waiting phase with the phase that loads its timer and the value it loads (R29). -/
def Loads (p q : PhaseCode) (T : Config.TimerValue) : Prop :=
  (p, q, T) ∈ [(0x1#4, 0x2#4, Config.tLoad), (0x8#4, 0x9#4, Config.tAuxHold), (0xA#4, 0xB#4, Config.tAuxPause),
    (0xE#4, 0xF#4, Config.tPoll)]

theorem loads_load : Loads 0x1#4 0x2#4 Config.tLoad := by simp [Loads]
theorem loads_auxHold : Loads 0x8#4 0x9#4 Config.tAuxHold := by simp [Loads]
theorem loads_auxPause : Loads 0xA#4 0xB#4 Config.tAuxPause := by simp [Loads]
theorem loads_poll : Loads 0xE#4 0xF#4 Config.tPoll := by simp [Loads]

theorem Loads.cases {p q : PhaseCode} {T : Config.TimerValue} (h : Loads p q T) :
    p = 0x1#4 ∧ q = 0x2#4 ∧ T = Config.tLoad ∨ p = 0x8#4 ∧ q = 0x9#4 ∧ T = Config.tAuxHold ∨
      p = 0xA#4 ∧ q = 0xB#4 ∧ T = Config.tAuxPause ∨ p = 0xE#4 ∧ q = 0xF#4 ∧ T = Config.tPoll := by
  simpa [Loads] using h

/-- A wait is entered from the phase that loads its timer, or goes on. -/
theorem Loads.into_wait {p q : PhaseCode} {T : Config.TimerValue} (h : Loads p q T) :
    ∀ e ∈ phaseGraph, e.2 = q → e.1 = p ∨ e.1 = q := by
  rcases h.cases with ⟨rfl, rfl, rfl⟩ | ⟨rfl, rfl, rfl⟩ | ⟨rfl, rfl, rfl⟩ | ⟨rfl, rfl, rfl⟩ <;> simp [phaseGraph]

theorem Loads.timer_of_load {p q : PhaseCode} {T : Config.TimerValue} (h : Loads p q T) {s : State} (hp : s.phase = p) :
    s.afterPhase.timer = T := by
  rw [State.afterPhase_eq, hp]
  rcases h.cases with ⟨rfl, rfl, rfl⟩ | ⟨rfl, rfl, rfl⟩ | ⟨rfl, rfl, rfl⟩ | ⟨rfl, rfl, rfl⟩ <;> simp [phaseFields]

theorem Loads.timer_of_wait {p q : PhaseCode} {T : Config.TimerValue} (h : Loads p q T) {s : State} (hp : s.phase = q) :
    s.afterPhase.timer = if s.timer = 0#Config.timerWidth then s.timer else s.timer - 1#Config.timerWidth := by
  rw [State.afterPhase_eq, hp]
  rcases h.cases with ⟨rfl, rfl, rfl⟩ | ⟨rfl, rfl, rfl⟩ | ⟨rfl, rfl, rfl⟩ | ⟨rfl, rfl, rfl⟩ <;>
    simp [phaseFields, State.waitFields]

/-- One execution of a wait does not raise the timer. -/
theorem countDown_le (t : Config.TimerValue) :
    (if t = 0#Config.timerWidth then t else t - 1#Config.timerWidth) ≤ t := by
  split_ifs with h
  · exact BitVec.le_refl t
  · have hdown := timer_sub_one_toNat t h
    rw [BitVec.le_def]
    omega

/-- A wait's timer stays within its reload value. -/
theorem Loads.timer_le {p q : PhaseCode} {T : Config.TimerValue} (h : Loads p q T) {s : State}
    (hs : s.phase = q → s.timer ≤ T) (hq : s.afterPhase.phase = q) : s.afterPhase.timer ≤ T := by
  obtain hp | hp : s.phase = p ∨ s.phase = q := h.into_wait _ (afterPhase_mem_phaseGraph s) hq
  · rw [h.timer_of_load hp]
    exact BitVec.le_refl T
  · rw [h.timer_of_wait hp]
    exact BitVec.le_trans (countDown_le s.timer) (hs hp)

/-! The clauses after a phase step. -/

namespace State.Inv

variable {s : State} (hI : s.Inv)

include hI

theorem afterPhase_auxHigh :
    s.afterPhase.aux = true ↔ s.afterPhase.phase = Phase.auxHold ∨ s.afterPhase.phase = Phase.auxRelease := by
  have hhigh := hI.auxHigh
  rw [Phase.auxHold_code, Phase.auxRelease_code, phaseGraph_into_auxPulse _ (afterPhase_mem_phaseGraph s)]
  simp only [State.afterPhase, State.advance_aux, phaseResult_aux, decodePhase_eq_auxAssert_iff,
    decodePhase_eq_auxRelease_iff]
  split_ifs <;> simp_all

/-- The request goes up with the entry to `MELODY_WAIT` and down with the answer that leaves it. -/
theorem afterPhase_requesting : s.afterPhase.melodyReq = true ↔ s.afterPhase.phase = Phase.melodyWait := by
  have hhigh := hI.requesting
  by_cases hstart : s.phase = 0xC#4
  · simp [State.afterPhase_eq, hstart, phaseFields]
  by_cases hwait : s.phase = 0xD#4
  · cases hdone : s.inputs.melodyDone <;> simp_all [State.afterPhase_eq, phaseFields]
  · have hphase : s.afterPhase.phase ≠ 0xD#4 := fun h => by
      obtain hp | hp := phaseGraph_into_melodyWait _ (afterPhase_mem_phaseGraph s) h
      · exact hstart hp
      · exact hwait hp
    have hkeep : s.afterPhase.melodyReq = s.melodyReq := by
      simp [State.afterPhase, phaseResult_melodyReq, hstart, hwait]
    rw [hkeep, hhigh]
    exact iff_of_false hwait hphase

/-- The first mask is bit 7's, and a scan that is not the last leads to the next monitored bit. -/
theorem afterPhase_maskMonitored (h : s.afterPhase.phase = 0x7#4) :
    s.afterPhase.mask ∈ [0x80#8, 0x40#8, 0x20#8, 0x10#8] := by
  obtain hp | hp : s.phase = 0x6#4 ∨ s.phase = 0x7#4 := phaseGraph_into_scan _ (afterPhase_mem_phaseGraph s) h
  · simp [State.afterPhase_eq, hp, phaseFields, monStartMask]
  · have hmore : s.mask ≠ 0x10#8 := fun hlast => by
      have hphase : s.afterPhase.phase = scanSuccessor s := by simp [State.afterPhase_eq, hp, phaseFields]
      rw [hphase, scanSuccessor_eq hp] at h
      split_ifs at h <;> simp_all
    have hmask : s.afterPhase.mask = s.mask >>> 1 := by simp [State.afterPhase_eq, hp, phaseFields]
    have hmonitored := hI.maskMonitored hp
    simp only [List.mem_cons, List.not_mem_nil, or_false] at hmonitored
    rw [hmask]
    rcases hmonitored with hm | hm | hm | hm
    · simp [hm]
    · simp [hm]
    · simp [hm]
    · exact absurd hm hmore

theorem afterPhase_changedRecords (h : s.afterPhase.phase ∈ 0x7#4 :: sideEffectCodes ++ [0xE#4]) :
    s.afterPhase.changed = decide (s.afterPhase.raw ≠ s.afterPhase.prev) := by
  obtain hp | hp : s.phase = 0x6#4 ∨ s.phase ∈ 0x7#4 :: sideEffectCodes :=
    phaseGraph_into_update _ (afterPhase_mem_phaseGraph s) h
  · simp [State.afterPhase_eq, hp, phaseFields, wholeByteDiffers]
  · obtain ⟨hchanged, hraw, hprev⟩ := afterPhase_update_registers hp
    rw [hchanged, hraw, hprev]
    exact hI.changedRecords (List.mem_append_left [0xE#4] hp)

theorem afterPhase_sideEffectChanged (h : s.afterPhase.phase ∈ sideEffectCodes) : s.afterPhase.changed = true := by
  obtain ⟨hp, hassert⟩ | hp : (s.phase = 0x7#4 ∧ s.afterPhase.phase = 0x8#4) ∨ s.phase ∈ sideEffectCodes :=
    phaseGraph_into_sideEffect _ (afterPhase_mem_phaseGraph s) h
  · have hphase : s.afterPhase.phase = scanSuccessor s := by simp [State.afterPhase_eq, hp, phaseFields]
    obtain ⟨hchanged, -⟩ := afterPhase_update_registers (s := s) (by simp [hp])
    rw [hchanged]
    exact ((scanSuccessor_eq_auxAssert_iff hp).1 (hphase.symm.trans hassert)).2
  · obtain ⟨hchanged, -⟩ := afterPhase_update_registers (List.mem_cons_of_mem _ hp)
    rw [hchanged]
    exact hI.sideEffectChanged hp

/-- `STORE` makes `prev` the sample, and the wait after it keeps both. -/
theorem afterPhase_prevAfterStore (h : s.afterPhase.phase = 0xF#4) : s.afterPhase.prev = s.afterPhase.raw := by
  obtain hp | hp : s.phase = 0xE#4 ∨ s.phase = 0xF#4 := phaseGraph_into_pollWait _ (afterPhase_mem_phaseGraph s) h
  · simp [State.afterPhase_eq, hp, phaseFields]
  · simpa [State.afterPhase_eq, hp, phaseFields, State.waitFields] using hI.prevAfterStore hp

theorem afterPhase_emittable {e : Event} (he : e ∈ s.afterPhase.events) : e.wf = true := by
  rw [State.afterPhase, State.advance_events, phaseResult_events, List.mem_append] at he
  obtain hold | hnew := he
  · exact hI.emittable e hold
  · exact hI.phaseEvent_wf (by simpa using hnew)

/-- A phase step keeps the invariant. -/
theorem afterPhase : s.afterPhase.Inv where
  bench := State.advance_benchWord _
  loadLow := hI.readerLines.afterPhase.loadLow
  sckHigh := hI.readerLines.afterPhase.sckHigh
  auxHigh := hI.afterPhase_auxHigh
  requesting := hI.afterPhase_requesting
  maskMonitored := hI.afterPhase_maskMonitored
  changedRecords := hI.afterPhase_changedRecords
  sideEffectChanged := hI.afterPhase_sideEffectChanged
  txZero := hI.readerLines.afterPhase.txZero
  loadTimer := loads_load.timer_le hI.loadTimer
  auxHoldTimer := loads_auxHold.timer_le hI.auxHoldTimer
  auxPauseTimer := loads_auxPause.timer_le hI.auxPauseTimer
  pollTimer := loads_poll.timer_le hI.pollTimer
  prevAfterReset h := absurd h (phaseGraph_not_into_banner _ (afterPhase_mem_phaseGraph s))
  prevAfterStore := hI.afterPhase_prevAfterStore
  emittable _ := hI.afterPhase_emittable

/-- A reset edge leads to a state with the invariant: `BANNER` with every line at its reset level. -/
theorem resetEdge : s.resetEdge.advance.Inv := by
  constructor <;> simp [sentinel]
  case emittable => exact hI.emittable

end State.Inv

/-- Settles O39, by the values of the reset state. -/
theorem invariantHoldsAtReset : Obligations.InvariantHoldsAtReset := inv_reset

/-- Settles O40: a step is a reset edge or a phase step, and each keeps the invariant. -/
theorem stepKeepsTheInvariant : Obligations.StepKeepsTheInvariant := by
  intro s t hI hst
  obtain ⟨-, rfl⟩ | ⟨-, rfl⟩ := step_next_cases hI.bench hst
  · exact hI.resetEdge
  · exact hI.afterPhase

/-- Settles O41: `LOAD_ASSERT` is entered from `BANNER` or `POLL_WAIT`, where the invariant says what `prev` holds,
and neither writes `prev` or `raw`. -/
theorem prevAtTheStartOfACycle : Obligations.PrevAtTheStartOfACycle := by
  intro s t hI hst hp
  obtain ⟨-, rfl⟩ | ⟨-, ht⟩ := step_next_cases hI.bench hst
  · simp at hp
  · obtain rfl : t = s.afterPhase := ht
    obtain hfrom | hfrom : s.phase = 0x0#4 ∨ s.phase = 0xF#4 :=
      phaseGraph_into_loadAssert _ (afterPhase_mem_phaseGraph s) hp
    · exact .inl ⟨hfrom, by simpa [State.afterPhase_eq, hfrom, phaseFields] using hI.prevAfterReset hfrom⟩
    · exact .inr ⟨hfrom, by
        simpa [State.afterPhase_eq, hfrom, phaseFields, State.waitFields] using hI.prevAfterStore hfrom⟩

end Sys2Proof.Machine
end

section
/-! PROOFS. A poll cycle as a run (R157): the pieces after `read()` (the comparison and the four scans, a phase that
loads a wait with the wait, the side effect), each as a `Reach`, and the two cycles put together from them. -/

namespace Sys2Proof.Machine

/-! Runs and the environment. -/

theorem Reach.of_eq {s u : State} {m n : Nat} {ps qs : List Instr} (h : Reach s m ps u) (hm : m = n) (hps : ps = qs) :
    Reach s n qs u := by
  subst hm hps
  exact h

theorem Reach.presents {s u : State} {n first : Nat} {ps : List Instr} {L : Byte} (h : Reach s n ps u)
    (hL : Presents s L (n + first)) : Presents u L first := fun k hk => by
  rw [h.inputsAt, ← Nat.add_assoc]
  exact hL k hk

theorem Reach.answers {s u : State} {n first w : Nat} {ps : List Instr} (h : Reach s n ps u)
    (ha : Answers s (n + first) w) : Answers u first w := by
  simpa only [Answers, h.inputsAt, ← Nat.add_assoc] using ha

/-- One step, with its phase named. -/
theorem Reach.phase {s : State} {c : PhaseCode} (hp : s.phase = c) (hr : s.inputs.rst = false)
    (hb : s.benchWord = none) : Reach s 1 [decodePhase c] s.afterPhase :=
  (Reach.one hr hb).of_eq rfl (by rw [hp])

/-! A phase that loads a wait, and the wait. -/

/-- Loading a wait and waiting take two steps more than the reload value (R29). -/
theorem Loads.reach {p q r : PhaseCode} {T : Config.TimerValue} (hload : Loads p q T) (hwait : IsWait q r) {s : State}
    (hp : s.phase = p) (hb : s.benchWord = none) (hn : NoReset s (T.toNat + 2)) :
    ∃ u, Reach s (T.toNat + 2) (decodePhase p :: waits (decodePhase q) T) u ∧ u.phase = r ∧
      SameButTimer u s.afterPhase := by
  have hfirst := Reach.phase hp (hn 0 (by omega)) hb
  have hphase : s.afterPhase.phase = q := by
    rw [State.afterPhase_eq, hp]
    rcases hload.cases with ⟨rfl, rfl, rfl⟩ | ⟨rfl, rfl, rfl⟩ | ⟨rfl, rfl, rfl⟩ | ⟨rfl, rfl, rfl⟩ <;> simp [phaseFields]
  have htimer : s.afterPhase.timer = T := hload.timer_of_load hp
  obtain ⟨u, hu, hpu, -, hsame⟩ := wait_leaves rfl (IsWait.phaseResult hwait) s.afterPhase hphase hfirst.bench
    (hfirst.noReset (hn.mono (by rw [htimer]; omega)))
  rw [htimer] at hu
  exact ⟨u, (hfirst.trans hu).of_eq (by omega) rfl, hpu, hsame⟩

/-! The comparison and the scans. -/

/-- What the comparison and the scans leave alone. -/
structure SameSample (u s : State) : Prop where
  raw : u.raw = s.raw
  prev : u.prev = s.prev
  aux : u.aux = s.aux
  melodyReq : u.melodyReq = s.melodyReq

theorem SameSample.trans {u t s : State} (h : SameSample u t) (h' : SameSample t s) : SameSample u s :=
  ⟨h.raw.trans h'.raw, h.prev.trans h'.prev, h.aux.trans h'.aux, h.melodyReq.trans h'.melodyReq⟩

/-- The positions of the last `n` scans of a cycle, in their order (R113). -/
def scanPositions : Nat → List Nat
  | 0 => []
  | n + 1 => (n + 4) :: scanPositions n

/-- The mask of the scan that has `n` more after it. -/
theorem isMonitored_scan {n : Nat} (hn : n < 4) : IsMonitored (n + 4) (0x08#8 <<< (n + 1)) := by
  interval_cases n <;> simp [IsMonitored]

/-- The last `n` scans of a cycle report their positions and leave as `changed` says. -/
theorem scans_reach (n : Nat) (hn4 : n ≤ 4) {s : State} (hmask : s.mask = 0x08#8 <<< n)
    (hp : s.phase = if n = 0 then (if s.changed then 0x8#4 else 0xE#4) else 0x7#4) (hb : s.benchWord = none)
    (hn : NoReset s n) :
    ∃ u, Reach s n (List.replicate n .scan) u ∧
      u.events = s.events ++ (scanPositions n).flatMap (inputReport s.prev s.raw) ∧
      u.phase = (if s.changed then 0x8#4 else 0xE#4) ∧ u.mask = 0x08#8 ∧ u.changed = s.changed ∧ SameSample u s := by
  induction n generalizing s with
  | zero => exact ⟨s, Reach.refl hb, by simp [scanPositions], hp, hmask, rfl, ⟨rfl, rfl, rfl, rfl⟩⟩
  | succ n ih =>
    have hlt : n < 4 := hn4
    have hmon : IsMonitored (n + 4) s.mask := by
      rw [hmask]
      exact isMonitored_scan hlt
    have hlast : s.mask = 0x10#8 ↔ n = 0 := by
      rw [hmask]
      interval_cases n <;> decide
    have hnext : s.mask >>> 1 = 0x08#8 <<< n := by
      rw [hmask]
      interval_cases n <;> rfl
    obtain ⟨t, ht, hevents, htmask, hpt, hchanged, hraw, hprev, haux, hreq⟩ :=
      scan_step s (n + 4) hmon (by simpa using hp) hb (hn.mono (by omega))
    obtain ⟨u, hu, hevents', hpu, humask, hchanged', hsame⟩ := ih (by omega) (htmask.trans hnext)
      (by simp only [hpt, hlast, hchanged]) ht.bench (ht.noReset (hn.mono (by omega)))
    refine ⟨u, (ht.trans hu).of_eq (by omega) rfl, ?_, by rw [hpu, hchanged], humask, hchanged'.trans hchanged,
      hsame.trans ⟨hraw, hprev, haux, hreq⟩⟩
    rw [hevents', hevents, hraw, hprev, scanPositions, List.flatMap_cons, List.append_assoc]

/-- The phases of the comparison and the scans, the first part of `updatePhases` (`updatePhases_eq`). -/
def detectPhases : List Instr := [.compare, .scan, .scan, .scan, .scan]

theorem updatePhases_eq (changed : Bool) (w : Nat) :
    updatePhases changed w = detectPhases ++ (if changed then sideEffectPhases w else []) ++ [.store] := rfl

/-- `COMPARE` and the four scans put the report of `update` on the channel (R110 to R115). -/
theorem detect_reach {s : State} (hp : s.phase = 0x6#4) (hb : s.benchWord = none) (hn : NoReset s 5) :
    ∃ u, Reach s 5 detectPhases u ∧ u.events = s.events ++ (update s.prev s.raw).events ∧
      u.phase = (if s.raw = s.prev then 0xE#4 else 0x8#4) ∧ u.mask = 0x08#8 ∧ u.changed = decide (s.raw ≠ s.prev) ∧
      SameSample u s := by
  have hfirst := Reach.phase hp (hn 0 (by omega)) hb
  have efirst : s.afterPhase = (phaseFields s .compare).advance := by rw [State.afterPhase_eq, hp]; rfl
  have hchanged : s.afterPhase.changed = decide (s.raw ≠ s.prev) := by simp [efirst, phaseFields, wholeByteDiffers]
  have hsame : SameSample s.afterPhase s := by rw [efirst]; constructor <;> simp [phaseFields]
  have hevents : s.afterPhase.events = s.events ++ if s.raw ≠ s.prev then [patternEvent s.raw] else [] := by
    by_cases h : s.raw = s.prev <;> simp [efirst, phaseFields, wholeByteDiffers, h]
  obtain ⟨u, hu, huevents, hpu, humask, huchanged, husame⟩ := scans_reach 4 (Nat.le_refl 4) (s := s.afterPhase)
    (by simp [efirst, phaseFields, monStartMask]) (by simp [efirst, phaseFields]) hfirst.bench (hfirst.noReset hn)
  refine ⟨u, hfirst.trans hu, ?_, ?_, humask, huchanged.trans hchanged, husame.trans hsame⟩
  · rw [huevents, hevents, hsame.prev, hsame.raw, List.append_assoc]
    rfl
  · rw [hpu, hchanged]
    by_cases h : s.raw = s.prev <;> simp [h]

/-- Settles O25, by `detect_reach`. -/
theorem compareAndScanEmitTheReport : Obligations.CompareAndScanEmitTheReport := by
  intro s hp hb hn
  obtain ⟨u, hu, hevents, hpu, hmask, hchanged, hsame⟩ := detect_reach hp hb hn
  exact ⟨hu.phases, u, hu.run, hevents, hpu, hchanged, hsame.raw, hsame.prev, hmask⟩

/-! The side effect. -/

/-- The phases of the side effect up to the request, the first part of `sideEffectPhases` (`sideEffectPhases_eq`). -/
def requestPhases : List Instr :=
  [.auxAssert] ++ waits .auxHold Config.tAuxHold ++ [.auxRelease] ++ waits .auxPause Config.tAuxPause ++ [.melodyStart]

theorem sideEffectPhases_eq (w : Nat) : sideEffectPhases w = requestPhases ++ List.replicate w .melodyWait := rfl

/-- What the side effect and the wait after `STORE` leave alone. -/
structure SameReport (u s : State) : Prop where
  raw : u.raw = s.raw
  prev : u.prev = s.prev
  events : u.events = s.events

theorem SameReport.trans {u t s : State} (h : SameReport u t) (h' : SameReport t s) : SameReport u s :=
  ⟨h.raw.trans h'.raw, h.prev.trans h'.prev, h.events.trans h'.events⟩

theorem SameButTimer.sameReport {u s : State} (h : SameButTimer u s) : SameReport u s := ⟨h.raw, h.prev, h.events⟩

/-- The auxiliary pulse, the pause and `MELODY_START` (R147 to R152). -/
theorem request_reach {s : State} (hp : s.phase = 0x8#4) (hb : s.benchWord = none)
    (hn : NoReset s (5 + Config.tAuxHold.toNat + Config.tAuxPause.toNat)) :
    ∃ u, Reach s (5 + Config.tAuxHold.toNat + Config.tAuxPause.toNat) requestPhases u ∧ u.phase = 0xD#4 ∧
      u.aux = false ∧ u.melodyReq = true ∧ SameReport u s := by
  have hsplit : 5 + Config.tAuxHold.toNat + Config.tAuxPause.toNat =
      (Config.tAuxHold.toNat + 2) + ((Config.tAuxPause.toNat + 2) + 1) := by omega
  rw [hsplit] at hn ⊢
  obtain ⟨t, ht, hpt, hst⟩ := loads_auxHold.reach (r := 0xA#4) (by simp [IsWait]) hp hb
    (hn.mono (by omega))
  have hn' := ht.noReset hn
  obtain ⟨v, hv, hpv, htv⟩ := loads_auxPause.reach (r := 0xC#4) (by simp [IsWait]) hpt
    ht.bench (hn'.mono (by omega))
  have hstart := Reach.phase hpv ((hv.noReset hn').head) hv.bench
  have es : s.afterPhase = (phaseFields s .auxAssert).advance := by rw [State.afterPhase_eq, hp]; rfl
  have et : t.afterPhase = (phaseFields t .auxRelease).advance := by rw [State.afterPhase_eq, hpt]; rfl
  have ev : v.afterPhase = (phaseFields v .melodyStart).advance := by rw [State.afterPhase_eq, hpv]; rfl
  have hss : SameReport s.afterPhase s := by rw [es]; constructor <;> simp [phaseFields]
  have htt : SameReport t.afterPhase t := by rw [et]; constructor <;> simp [phaseFields]
  have hvv : SameReport v.afterPhase v := by rw [ev]; constructor <;> simp [phaseFields]
  refine ⟨v.afterPhase, (ht.trans (hv.trans hstart)).of_eq rfl (by simp [requestPhases]), by simp [ev, phaseFields], ?_,
    by simp [ev, phaseFields], ((hvv.trans htv.sameReport).trans htt).trans (hst.sameReport.trans hss)⟩
  calc v.afterPhase.aux = v.aux := by simp [ev, phaseFields]
    _ = t.afterPhase.aux := htv.aux
    _ = false := by simp [et, phaseFields]

/-- The whole side effect, the melody answered in the `w`-th wait (R146 to R153). -/
theorem sideEffect_reach {s : State} {w : Nat} (hp : s.phase = 0x8#4) (hb : s.benchWord = none)
    (hn : NoReset s (5 + Config.tAuxHold.toNat + Config.tAuxPause.toNat + w))
    (ha : Answers s (5 + Config.tAuxHold.toNat + Config.tAuxPause.toNat) w) :
    ∃ u, Reach s (5 + Config.tAuxHold.toNat + Config.tAuxPause.toNat + w) (sideEffectPhases w) u ∧ u.phase = 0xE#4 ∧
      u.aux = false ∧ u.melodyReq = false ∧ SameReport u s := by
  obtain ⟨t, ht, hpt, haux, -, hst⟩ := request_reach hp hb (hn.mono (by omega))
  obtain ⟨u, hu, hpu, hsame⟩ := melodyWait_leaves hpt ht.bench (ht.noReset hn) (ht.answers ha)
  exact ⟨u, (ht.trans hu).of_eq rfl (sideEffectPhases_eq w).symm, hpu, hsame.aux.trans haux, hsame.melodyReq,
    hsame.sameReport.trans { hst with }⟩

/-! The end of a cycle, and the two cycles. -/

/-- `STORE` and the wait after it (R116, R155). -/
theorem store_reach {s : State} (hp : s.phase = 0xE#4) (hb : s.benchWord = none)
    (hn : NoReset s (Config.tPoll.toNat + 2)) :
    ∃ u, Reach s (Config.tPoll.toNat + 2) (.store :: waits .pollWait Config.tPoll) u ∧ u.phase = 0x1#4 ∧
      u.raw = s.raw ∧ u.prev = s.raw ∧ u.events = s.events ∧ u.aux = s.aux ∧ u.melodyReq = s.melodyReq := by
  obtain ⟨u, hu, hpu, hsame⟩ := loads_poll.reach (r := 0x1#4) (by simp [IsWait]) hp hb hn
  have es : s.afterPhase = (phaseFields s .store).advance := by rw [State.afterPhase_eq, hp]; rfl
  refine ⟨u, hu, hpu, ?_⟩
  rw [hsame.raw, hsame.prev, hsame.events, hsame.aux, hsame.melodyReq, es]
  simp [phaseFields]

/-- A cycle up to the decision: `read()`, the comparison and the scans. -/
theorem readAndDetect_reach {s : State} {L : Byte} (hp : s.phase = 0x1#4) (hb : s.benchWord = none)
    (hn : NoReset s (24 + Config.tLoad.toNat)) (hL : Presents s L (Config.tLoad.toNat + 3)) :
    ∃ u, Reach s (24 + Config.tLoad.toNat) (readPhases ++ detectPhases) u ∧
      u.phase = (if L = s.prev then 0xE#4 else 0x8#4) ∧ u.raw = L ∧ u.prev = s.prev ∧
      u.events = s.events ++ (update s.prev L).events ∧ u.aux = s.aux ∧ u.melodyReq = s.melodyReq := by
  have hsplit : 24 + Config.tLoad.toNat = 19 + Config.tLoad.toNat + 5 := by omega
  rw [hsplit] at hn ⊢
  obtain ⟨t, ht, hpt, hraw, hst⟩ := read_reach hp hb (hn.mono (by omega))
  obtain ⟨u, hu, hevents, hpu, -, -, hsame⟩ := detect_reach hpt ht.bench (ht.noReset hn)
  rw [hraw L hL, hst.prev] at hevents hpu
  exact ⟨u, ht.trans hu, hpu, hsame.raw.trans (hraw L hL), hsame.prev.trans hst.prev, by rw [hevents, hst.events],
    hsame.aux.trans hst.aux, hsame.melodyReq.trans hst.melodyReq⟩

/-- A cycle without a change (R157, R194). -/
theorem quietCycle_reach {s : State} (hp : s.phase = 0x1#4) (hb : s.benchWord = none) (hn : NoReset s quietCycleSteps)
    (hL : Presents s s.prev (Config.tLoad.toNat + 3)) :
    ∃ u, Reach s quietCycleSteps (pollPhases false 0) u ∧ u.phase = 0x1#4 ∧ u.prev = s.prev ∧ u.raw = s.prev ∧
      u.events = s.events ∧ u.aux = s.aux ∧ u.melodyReq = s.melodyReq := by
  have hsplit : quietCycleSteps = 24 + Config.tLoad.toNat + (Config.tPoll.toNat + 2) := by rw [quietCycleSteps]; omega
  rw [hsplit] at hn ⊢
  obtain ⟨t, ht, hpt, hraw, -, hevents, haux, hreq⟩ := readAndDetect_reach hp hb (hn.mono (by omega)) hL
  rw [update_self_events, List.append_nil] at hevents
  obtain ⟨u, hu, hpu, huraw, huprev, huevents, huaux, hureq⟩ :=
    store_reach (by simpa using hpt) ht.bench (ht.noReset hn)
  exact ⟨u, (ht.trans hu).of_eq rfl (by simp [pollPhases, updatePhases_eq]), hpu, huprev.trans hraw,
    huraw.trans hraw, huevents.trans hevents, huaux.trans haux, hureq.trans hreq⟩

/-- A cycle with a change (R157, R194). -/
theorem changedCycle_reach {s : State} {L : Byte} {w : Nat} (hp : s.phase = 0x1#4) (hb : s.benchWord = none)
    (hne : L ≠ s.prev) (hn : NoReset s (changedCycleSteps w)) (hL : Presents s L (Config.tLoad.toNat + 3))
    (ha : Answers s firstMelodyWaitStep w) :
    ∃ u, Reach s (changedCycleSteps w) (pollPhases true w) u ∧ u.phase = 0x1#4 ∧ u.prev = L ∧ u.raw = L ∧
      u.events = s.events ++ (update s.prev L).events ∧ u.aux = false ∧ u.melodyReq = false := by
  have hsplit : changedCycleSteps w = 24 + Config.tLoad.toNat +
      ((5 + Config.tAuxHold.toNat + Config.tAuxPause.toNat + w) + (Config.tPoll.toNat + 2)) := by
    rw [changedCycleSteps]; omega
  have hwait : firstMelodyWaitStep =
      24 + Config.tLoad.toNat + (5 + Config.tAuxHold.toNat + Config.tAuxPause.toNat) := by
    rw [firstMelodyWaitStep]; omega
  rw [hsplit] at hn ⊢
  rw [hwait] at ha
  obtain ⟨t, ht, hpt, hraw, -, hevents, -, -⟩ := readAndDetect_reach hp hb (hn.mono (by omega)) hL
  rw [if_neg hne] at hpt
  have hn' := ht.noReset hn
  obtain ⟨v, hv, hpv, haux, hreq, htv⟩ := sideEffect_reach hpt ht.bench (hn'.mono (by omega)) (ht.answers ha)
  obtain ⟨u, hu, hpu, huraw, huprev, huevents, huaux, hureq⟩ := store_reach hpv hv.bench (hv.noReset hn')
  have hvraw : v.raw = L := htv.raw.trans hraw
  exact ⟨u, (ht.trans (hv.trans hu)).of_eq rfl (by simp [pollPhases, updatePhases_eq]), hpu,
    huprev.trans hvraw, huraw.trans hvraw, by rw [huevents, htv.events, hevents], huaux.trans haux, hureq.trans hreq⟩

/-- Settles O42, by `quietCycle_reach`. -/
theorem pollCycleWithoutAChange : Obligations.PollCycleWithoutAChange := by
  intro s hp hb hn hL
  obtain ⟨u, hu, hpu, hprev, hraw, hevents, haux, hreq⟩ := quietCycle_reach hp hb hn hL
  exact ⟨hu.phases, u, hu.run, hpu, hprev, hraw, hevents, haux, hreq⟩

/-- Settles O43, by `changedCycle_reach`. -/
theorem pollCycleWithAChange : Obligations.PollCycleWithAChange := by
  intro s L w hp hb hne hn hL ha
  obtain ⟨u, hu, hpu, hprev, hraw, hevents, haux, hreq⟩ := changedCycle_reach hp hb hne hn hL ha
  exact ⟨hu.phases, u, hu.run, hpu, hprev, hraw, hevents, haux, hreq⟩

/-- One poll cycle of either kind is one call of `update` (R157). -/
theorem pollCycle_reach {s : State} {L : Byte} {n : Nat} (hp : s.phase = 0x1#4) (hb : s.benchWord = none)
    (henv : CycleEnvironment s L n) :
    ∃ u, s.run n = .next u ∧ u.phase = 0x1#4 ∧ u.benchWord = none ∧ u.prev = L ∧
      u.events = s.events ++ (update s.prev L).events := by
  obtain ⟨hn, hL, ⟨rfl, rfl⟩ | ⟨hne, w, ha, rfl⟩⟩ := henv
  all_goals rw [firstSampleStep] at hL
  · obtain ⟨u, hu, hpu, hprev, -, hevents, -⟩ := quietCycle_reach hp hb hn hL
    exact ⟨u, hu.run, hpu, hu.bench, hprev, by rw [hevents, update_self_events, List.append_nil]⟩
  · obtain ⟨u, hu, hpu, hprev, -, hevents, -⟩ := changedCycle_reach hp hb hne hn hL ha
    exact ⟨u, hu.run, hpu, hu.bench, hprev, hevents⟩

/-- Settles O44, by induction on the samples, one poll cycle each. -/
theorem consecutivePollCyclesEmitTheUpdates : Obligations.ConsecutivePollCyclesEmitTheUpdates := by
  intro s t samples hp hb h
  induction samples generalizing s with
  | nil =>
    obtain rfl : s = t := h
    exact ⟨hp, hb, by simp [updates], rfl⟩
  | cons L rest ih =>
    obtain ⟨n, v, henv, hv, hrest⟩ := h
    obtain ⟨u, hu, hpu, hbu, hprev, hevents⟩ := pollCycle_reach hp hb henv
    obtain rfl : u = v := by simpa using hu.symm.trans hv
    obtain ⟨hpt, hbt, htevents, htprev⟩ := ih u hpu hbu hrest
    rw [hprev] at htevents htprev
    exact ⟨hpt, hbt, by rw [htevents, hevents, updates, List.append_assoc], htprev⟩

end Sys2Proof.Machine
end

section
/-! PROOFS. What the lines show during the load pulse and the side effect (R95, R151), from the schedule of the run
and the invariant; the first cycle after reset (R181); and that a cycle with a change visits every phase (R156). -/

namespace Sys2Proof

@[simp] theorem decodePhase_eq_loadHold_iff {c : PhaseCode} : decodePhase c = .loadHold ↔ c = 0x2#4 := by
  revert c; decide

@[simp] theorem decodePhase_eq_auxHold_iff {c : PhaseCode} : decodePhase c = .auxHold ↔ c = 0x9#4 := by
  revert c; decide

/-- A phase has one code. -/
theorem decodePhase_injective {c d : PhaseCode} (h : decodePhase c = decodePhase d) : c = d := by
  simpa [encode_decodePhase] using congrArg encode h

end Sys2Proof

namespace Sys2Proof.Machine

/-! Schedules. -/

/-- On the way of a run, the state after `k` steps names the `k`-th phase, and at its end the one that is due. -/
theorem Reach.schedule {s u t : State} {n k : Nat} {ps : List Instr} (h : Reach s n ps u) (hk : k ≤ n)
    (ht : s.run k = .next t) : (ps ++ [decodePhase u.phase])[k]? = some (decodePhase t.phase) := by
  have hphases : s.phasesRun (n + 1) = ps ++ [decodePhase u.phase] := by
    rw [State.phasesRun_add n 1 h.run, h.phases, State.phasesRun_one]
  rw [← hphases]
  exact State.phasesRun_getElem? (Nat.lt_succ_of_le hk) ht

/-- A list whose middle part alone has a property has it exactly in that part's places. -/
theorem getElem?_window {α : Type} {P : α → Prop} {before inside after : List α} (hbefore : ∀ x ∈ before, ¬ P x)
    (hinside : ∀ x ∈ inside, P x) (hafter : ∀ x ∈ after, ¬ P x) {k : Nat} {x : α}
    (h : (before ++ inside ++ after)[k]? = some x) :
    P x ↔ before.length ≤ k ∧ k < before.length + inside.length := by
  obtain hk | hk := Nat.lt_or_ge k before.length
  · rw [List.append_assoc, List.getElem?_append_left hk] at h
    exact iff_of_false (hbefore x (List.mem_of_getElem? h)) (by omega)
  obtain hk' | hk' := Nat.lt_or_ge k (before.length + inside.length)
  · rw [List.getElem?_append_left (by simpa using hk'), List.getElem?_append_right hk] at h
    exact iff_of_true (hinside x (List.mem_of_getElem? h)) ⟨hk, hk'⟩
  · rw [List.getElem?_append_right (by simpa using hk')] at h
    exact iff_of_false (hafter x (List.mem_of_getElem? h)) (by omega)

@[simp] theorem length_waits (i : Instr) (T : Config.TimerValue) : (waits i T).length = T.toNat + 1 :=
  List.length_replicate

@[simp] theorem State.outputs_loadN (s : State) : s.outputs.loadN = s.loadN := rfl
@[simp] theorem State.outputs_aux (s : State) : s.outputs.aux = s.aux := rfl
@[simp] theorem State.outputs_melodyReq (s : State) : s.outputs.melodyReq = s.melodyReq := rfl

/-! The load pulse. -/

/-- `LOAD_HOLD` and `LOAD_RELEASE` stand at the periods 1 to `T_LOAD + 2` of `read()` and nowhere else. -/
theorem readSchedule_loadPulse_iff {k : Nat} {i : Instr} (h : readSchedule[k]? = some i) :
    (i = .loadHold ∨ i = .loadRelease) ↔ 1 ≤ k ∧ k ≤ Config.tLoad.toNat + 2 := by
  have hsplit : readSchedule =
      [Instr.loadAssert] ++ (waits .loadHold Config.tLoad ++ [Instr.loadRelease]) ++
        (exchangePhases 8 ++ [Instr.compare]) := by
    simp [readSchedule, readPhases_eq, loadPhases]
  have hpulse : ∀ j ∈ waits .loadHold Config.tLoad ++ [Instr.loadRelease], j = .loadHold ∨ j = .loadRelease := by
    simp [waits]
  rw [hsplit] at h
  rw [getElem?_window (P := fun j => j = .loadHold ∨ j = .loadRelease) (by simp) hpulse (by decide) h]
  simp
  omega

/-- Settles O36: `load_n` is low exactly in the phases of the pulse, which stand where the schedule has them. -/
theorem loadPulseLastsReloadPlusTwoPeriods : Obligations.LoadPulseLastsReloadPlusTwoPeriods := by
  intro s hI hp hn k hk
  obtain ⟨u, hu, hlines⟩ :=
    exists_run_of_afterPhase_keeps (P := ReaderLines) (fun _ => ReaderLines.afterPhase) hI.readerLines hI.bench
      (hn.mono hk)
  have hphase := readSchedule_getElem?_of_run hp hI.bench hn hk hu
  refine ⟨u, hu, ?_⟩
  rw [State.outputs_loadN, hlines.loadLow, ← readSchedule_loadPulse_iff hphase]
  simp

/-! The auxiliary pulse and the request. -/

/-- `AUX_HOLD` and `AUX_RELEASE` stand at the periods 1 to `T_AUX_HOLD + 2` of the side effect and nowhere else up to
the first `MELODY_WAIT`. -/
theorem requestSchedule_auxPulse_iff {k : Nat} {i : Instr} (h : (requestPhases ++ [Instr.melodyWait])[k]? = some i) :
    (i = .auxHold ∨ i = .auxRelease) ↔ 1 ≤ k ∧ k ≤ Config.tAuxHold.toNat + 2 := by
  have hsplit : requestPhases ++ [Instr.melodyWait] =
      [Instr.auxAssert] ++ (waits .auxHold Config.tAuxHold ++ [Instr.auxRelease]) ++
        (waits .auxPause Config.tAuxPause ++ [Instr.melodyStart, .melodyWait]) := by
    simp [requestPhases]
  have hpulse : ∀ j ∈ waits .auxHold Config.tAuxHold ++ [Instr.auxRelease], j = .auxHold ∨ j = .auxRelease := by
    simp [waits]
  have hafter : ∀ j ∈ waits .auxPause Config.tAuxPause ++ [Instr.melodyStart, .melodyWait],
      ¬ (j = .auxHold ∨ j = .auxRelease) := by
    simp [waits]
  rw [hsplit] at h
  rw [getElem?_window (P := fun j => j = .auxHold ∨ j = .auxRelease) (by simp) hpulse hafter h]
  simp
  omega

theorem length_requestPhases : requestPhases.length = 5 + Config.tAuxHold.toNat + Config.tAuxPause.toNat := by
  simp [requestPhases]
  omega

theorem melodyWait_notMem_requestPhases : Instr.melodyWait ∉ requestPhases := by
  simp [requestPhases, waits]

/-- The first `MELODY_WAIT` stands right after the pause and `MELODY_START`. -/
theorem requestSchedule_melodyWait_iff {k : Nat} {i : Instr} (h : (requestPhases ++ [Instr.melodyWait])[k]? = some i) :
    i = .melodyWait ↔ k = 5 + Config.tAuxHold.toNat + Config.tAuxPause.toNat := by
  have hsplit : (requestPhases ++ [Instr.melodyWait] ++ [])[k]? = some i := by rwa [List.append_nil]
  have hbefore : ∀ j ∈ requestPhases, ¬ j = .melodyWait := fun j hj hwait => by
    rw [hwait] at hj
    exact melodyWait_notMem_requestPhases hj
  rw [getElem?_window (P := (· = .melodyWait)) hbefore (by simp) (by simp) hsplit, length_requestPhases,
    List.length_singleton]
  omega

/-- Settles O38: the invariant says at which phases the two lines are high, and the schedule where these stand. -/
theorem auxPulseLastsReloadPlusTwoPeriods : Obligations.AuxPulseLastsReloadPlusTwoPeriods := by
  refine ⟨fun s hI hp hn k hk => ?_, fun s hI haux => ?_⟩
  · obtain ⟨v, hv, hpv, -⟩ := request_reach hp hI.bench hn
    obtain ⟨u, hu, hIu⟩ :=
      exists_run_of_afterPhase_keeps (P := State.Inv) (fun _ => State.Inv.afterPhase) hI hI.bench (hn.mono hk)
    have hphase := hv.schedule hk hu
    rw [hpv, decodePhase_melodyWait] at hphase
    refine ⟨u, hu, ?_, ?_⟩
    · rw [State.outputs_aux, hIu.auxHigh, ← requestSchedule_auxPulse_iff hphase]
      simp
    · rw [State.outputs_melodyReq, hIu.requesting, ← requestSchedule_melodyWait_iff hphase]
      simp
  · have hpulse : s.phase = 0x9#4 ∨ s.phase = 0xA#4 := hI.auxHigh.1 haux
    have hchanged : s.changed = true := hI.sideEffectChanged (by rcases hpulse with h | h <;> simp [h])
    have hrecords := hI.changedRecords (by rcases hpulse with h | h <;> simp [h])
    exact ⟨hchanged, of_decide_eq_true (hrecords.symm.trans hchanged)⟩

/-! The first cycle after reset. -/

/-- `BANNER` (R145). -/
theorem banner_reach {s : State} (hp : s.phase = 0x0#4) (hr : s.inputs.rst = false) (hb : s.benchWord = none) :
    Reach s 1 [.banner] s.afterPhase ∧ s.afterPhase.phase = 0x1#4 ∧ s.afterPhase.prev = s.prev ∧
      s.afterPhase.events = s.events ++ [.banner] := by
  have es : s.afterPhase = (phaseFields s .banner).advance := by rw [State.afterPhase_eq, hp]; rfl
  refine ⟨Reach.phase hp hr hb, ?_⟩
  rw [es]
  simp [phaseFields]

/-- Against the sentinel exactly the monitored 0 bits are reported. -/
theorem getLsbD_transitionSet_sentinel (L : Byte) {p : Nat} (h4 : 4 ≤ p) (h7 : p ≤ 7) :
    (transitionSet 0xFF#8 L).getLsbD p = true ↔ L.getLsbD p = false := by
  have hones : (0xFF#8).getLsbD p = true := by interval_cases p <;> rfl
  rw [getLsbD_transitionSet L 0xFF#8 h4 h7, hones]
  simp

/-- Every input event of the first report has level OFF. -/
theorem input_mem_update_sentinel {L : Byte} {index : BitVec 4} {level : Bool}
    (h : .input index level ∈ (update 0xFF#8 L).events) : level = false := by
  rw [update_events, List.mem_append] at h
  obtain hpattern | hinput := h
  · rw [patternEvent_eq] at hpattern
    split_ifs at hpattern <;> simp at hpattern
  · obtain ⟨p, hp, hevent⟩ := List.mem_map.1 hinput
    obtain ⟨⟨h4, h7⟩, hset⟩ := mem_reportedPositions.1 hp
    obtain ⟨-, rfl⟩ : _ ∧ L.getLsbD p = level := by simpa [positionEvent] using hevent
    exact (getLsbD_transitionSet_sentinel L h4 h7).1 hset

/-- Settles O45: `BANNER` and then `read()`; the first report by its closed form against the sentinel. -/
theorem firstCycleAfterReset : Obligations.FirstCycleAfterReset := by
  refine ⟨fun s L hI hp hn hL => ?_, fun L => ⟨⟨fun h => ?_, ?_⟩, fun _ _ => input_mem_update_sentinel,
    fun p h4 h7 => ?_⟩⟩
  · have hsteps : 20 + Config.tLoad.toNat = 1 + (19 + Config.tLoad.toNat) := by omega
    have hfirst : Config.tLoad.toNat + 4 = 1 + (Config.tLoad.toNat + 3) := by omega
    rw [hsteps] at hn ⊢
    rw [hfirst] at hL
    obtain ⟨hbanner, hpt, hprev, hevents⟩ := banner_reach hp (hn 0 (by omega)) hI.bench
    obtain ⟨u, hu, hpu, hraw, hsame⟩ := read_reach hpt hbanner.bench (hbanner.noReset hn)
    exact ⟨(hbanner.trans hu).phases, u, (hbanner.trans hu).run, hpu, hraw L (hbanner.presents hL),
      hsame.prev.trans (hprev.trans (hI.prevAfterReset hp)), hsame.events.trans hevents⟩
  · by_contra hne
    simpa [h] using update_events_head? hne
  · rintro rfl
    exact update_self_events _
  · rw [input_mem_update_events 0xFF#8 L h4 h7, getLsbD_transitionSet_sentinel L h4 h7, and_self_iff]

/-! Every phase is visited. -/

/-- A state of a run is reached by a shorter one. -/
theorem exists_run_of_mem_history {s t : State} {n : Nat} (h : t ∈ s.history n) : ∃ k, s.run k = .next t := by
  induction n generalizing s with
  | zero => simp [State.history] at h
  | succ n ih =>
    obtain rfl | hrest := List.mem_cons.1 h
    · exact ⟨0, rfl⟩
    · split at hrest
      · next u hst =>
        obtain ⟨k, hk⟩ := ih hrest
        exact ⟨k + 1, (State.run_succ k hst).trans hk⟩
      · simp at hrest
      · simp at hrest

/-- A phase that a run executes is named by a state on the way. -/
theorem Reach.exists_run_of_mem {s u : State} {n : Nat} {ps : List Instr} {p : PhaseCode} (h : Reach s n ps u)
    (hp : decodePhase p ∈ ps) : ∃ k t, s.run k = .next t ∧ t.phase = p := by
  rw [← h.phases] at hp
  obtain ⟨t, ht, hpt⟩ := List.mem_map.1 hp
  obtain ⟨k, hk⟩ := exists_run_of_mem_history ht
  exact ⟨k, t, hk, decodePhase_injective hpt⟩

/-- The levels of an environment that presents the byte 0x00 and answers the melody at once. -/
def answeringInputs : Inputs := { rst := false, serIn := false, melodyDone := true }

/-- The start of a run through every phase: reset, and after the banner the answering levels for a whole cycle with a
change. -/
def tourStart : State :=
  { State.reset with stimulus := List.replicate (changedCycleSteps 1 + 1) answeringInputs }

theorem tourStart_inputsAt {k : Nat} (hk : k ≤ changedCycleSteps 1) :
    tourStart.afterPhase.inputsAt k = answeringInputs :=
  State.inputsAt_of_replicate _ answeringInputs (changedCycleSteps 1) rfl rfl k hk

/-- After the banner the tour executes a poll cycle with a change, which has every phase but `BANNER`. -/
theorem tourStart_reach : ∃ u, Reach tourStart (1 + changedCycleSteps 1) ([.banner] ++ pollPhases true 1) u := by
  obtain ⟨hbanner, hp, hprev, -⟩ := banner_reach (s := tourStart) rfl rfl rfl
  have hn : NoReset tourStart.afterPhase (changedCycleSteps 1) := fun k hk => by
    rw [tourStart_inputsAt (by omega)]
    rfl
  have hL : Presents tourStart.afterPhase 0x00#8 (Config.tLoad.toNat + 3) := fun k hk => by
    rw [tourStart_inputsAt (by rw [changedCycleSteps]; omega)]
    simp [answeringInputs]
  have ha : Answers tourStart.afterPhase firstMelodyWaitStep 1 := by
    refine ⟨Nat.le_refl 1, fun k hk => absurd hk (by omega), ?_⟩
    rw [tourStart_inputsAt (by rw [firstMelodyWaitStep, changedCycleSteps]; omega)]
    rfl
  have hne : 0x00#8 ≠ tourStart.afterPhase.prev := by
    rw [hprev]
    decide
  obtain ⟨u, hu, -⟩ := changedCycle_reach hp hbanner.bench hne hn hL ha
  exact ⟨u, hbanner.trans hu⟩

theorem decodePhase_mem_tour (p : PhaseCode) : decodePhase p ∈ [.banner] ++ pollPhases true 1 := by
  rcases phaseCode_cases p with h | h | h | h | h | h | h | h | h | h | h | h | h | h | h | h <;>
    simp [h, pollPhases, readPhases, updatePhases, sideEffectPhases, waits]

/-- Settles O15: the tour executes every phase. -/
theorem everyPhaseIsReachable : Obligations.EveryPhaseIsReachable := by
  intro p
  obtain ⟨u, hu⟩ := tourStart_reach
  obtain ⟨k, t, ht, hp⟩ := hu.exists_run_of_mem (decodePhase_mem_tour p)
  exact ⟨_, k, t, ht, hp⟩

end Sys2Proof.Machine
end

section
/-! PROOFS. Two runs that start a cycle alike (R39, R41): which registers the next phases still read, phase by phase,
and that each phase step keeps the two runs equal in those. -/

namespace Sys2Proof

@[simp] theorem decodePhase_eq_scan_iff {c : PhaseCode} : decodePhase c = .scan ↔ c = 0x7#4 := by
  revert c; decide

@[simp] theorem decodePhase_eq_store_iff {c : PhaseCode} : decodePhase c = .store ↔ c = 0xE#4 := by
  revert c; decide

end Sys2Proof

namespace Sys2Proof.Machine

/-! What the sequencer and the channel depend on. -/

/-- A waiting instruction. -/
def isWaiting (i : Instr) : Prop := i ∈ [Instr.loadHold, .auxHold, .auxPause, .pollWait]

/-- Every wait has a phase that loads its timer. -/
theorem exists_loads_of_isWaiting {c : PhaseCode} (h : isWaiting (decodePhase c)) : ∃ p T, Loads p c T := by
  have hc : c = 0x2#4 ∨ c = 0x9#4 ∨ c = 0xB#4 ∨ c = 0xF#4 := by
    unfold isWaiting at h
    revert c
    decide
  obtain rfl | rfl | rfl | rfl := hc
  exacts [⟨_, _, loads_load⟩, ⟨_, _, loads_auxHold⟩, ⟨_, _, loads_auxPause⟩, ⟨_, _, loads_poll⟩]

/-- The next phase depends on the timer in a wait, on the bit count at the end of a bit, on mask and `changed` in a
scan, and else on the phase and the inputs. -/
theorem phaseFields_phase_congr {s t : State} {i : Instr} (hphase : s.phase = t.phase) (hinputs : s.inputs = t.inputs)
    (htimer : isWaiting i → s.timer = t.timer) (hbitcnt : i = .shiftAdvance → s.bitcnt = t.bitcnt)
    (hscan : i = .scan → s.mask = t.mask ∧ s.changed = t.changed) :
    (phaseFields s i).phase = (phaseFields t i).phase := by
  cases i with
  | loadHold | auxHold | auxPause | pollWait =>
    simp [phaseFields, State.waitFields, hphase, htimer (by simp [isWaiting])]
  | shiftAdvance => simp [phaseFields, hbitcnt rfl]
  | scan => simp [phaseFields, scanSuccessor, hphase, hscan rfl]
  | melodyWait => simp [phaseFields, hphase, hinputs]
  | evBanner | evPattern | evInput => exact hphase
  | _ => rfl

/-- The event of a phase depends on the two samples, and in a scan on the mask. -/
theorem phaseEvent_congr {s t : State} {i : Instr} (hprev : s.prev = t.prev)
    (hraw : i = .compare ∨ i = .scan → s.raw = t.raw) (hmask : i = .scan → s.mask = t.mask) :
    phaseEvent s i = phaseEvent t i := by
  cases i with
  | compare => simp [phaseEvent, hprev, hraw (.inl rfl)]
  | scan => simp [phaseEvent, hprev, hraw (.inr rfl), hmask rfl]
  | _ => rfl

/-- Which phase writes `prev` (R24). -/
theorem phaseResult_prev (s : State) (i : Instr) : (phaseResult s i).prev = if i = .store then s.raw else s.prev := by
  cases i <;> simp [phaseResult, apply_ite State.prev]

/-! The registers that matter. -/

/-- The phases at which `raw` holds the whole sample of the cycle, `COMPARE` to `STORE`. -/
def sampleCodes : List PhaseCode := 0x6#4 :: 0x7#4 :: sideEffectCodes ++ [0xE#4]

theorem phaseGraph_into_sampleCodes : ∀ e ∈ phaseGraph, e.2 ∈ sampleCodes → e.1 = 0x5#4 ∨ e.1 ∈ sampleCodes := by
  simp [phaseGraph, sampleCodes, sideEffectCodes]

/-- How many low bits of `raw` belong to the sample of this cycle: those shifted in so far, all eight from `COMPARE`
to `STORE`, and none outside. -/
def sampledBits (s : State) : Nat :=
  if s.phase = 0x4#4 then s.bitcnt.toNat
  else if s.phase = 0x5#4 then s.bitcnt.toNat + 1
  else if s.phase ∈ sampleCodes then 8
  else 0

/-- Alike, and equal in every register that the phases to come read before they write it. -/
structure Matched (s t : State) : Prop where
  alike : s.Alike t
  timer : ∀ p q T, Loads p q T → s.phase = q → s.timer = t.timer
  bitcnt : s.phase = 0x4#4 ∨ s.phase = 0x5#4 → s.bitcnt = t.bitcnt
  scan : s.phase = 0x7#4 → s.mask = t.mask ∧ s.changed = t.changed
  raw : ∀ k, k < sampledBits s → s.raw.getLsbD k = t.raw.getLsbD k

/-- At the start of a cycle, and at the banner, nothing but what `Alike` says matters. -/
theorem matched_of_alike {s t : State} (h : s.Alike t) (hp : s.phase = 0x0#4 ∨ s.phase = 0x1#4) : Matched s t where
  alike := h
  timer p q T hload hq := by
    rcases hload.cases with ⟨-, rfl, -⟩ | ⟨-, rfl, -⟩ | ⟨-, rfl, -⟩ | ⟨-, rfl, -⟩ <;> simp [hq] at hp
  bitcnt h45 := by rcases hp with hp | hp <;> simp [hp] at h45
  scan h7 := by simp [h7] at hp
  raw k hk := by rcases hp with hp | hp <;> simp [sampledBits, sampleCodes, sideEffectCodes, hp] at hk

/-- The registers that are no part of `Alike` do not matter to the reset edge. -/
theorem matched_resetEdge {s t : State} (h : s.Alike t) : Matched s.resetEdge.advance t.resetEdge.advance := by
  refine matched_of_alike ?_ (.inl (by simp))
  constructor <;> simp [h.events, h.stimulus, h.tick]

namespace Matched

variable {s t : State} (h : Matched s t)

include h

theorem raw_eq (hp : s.phase ∈ sampleCodes) : s.raw = t.raw := by
  refine BitVec.eq_of_getLsbD_eq fun k hk => h.raw k ?_
  have hnot : s.phase ≠ 0x4#4 ∧ s.phase ≠ 0x5#4 := by
    constructor <;> intro hp' <;> simp [hp', sampleCodes, sideEffectCodes] at hp
  rwa [sampledBits, if_neg hnot.1, if_neg hnot.2, if_pos hp]

/-- The same phase is due in both, so both steps do the same to different states. -/
theorem afterPhase_eq : t.afterPhase = (phaseFields t (decodePhase s.phase)).advance := by
  rw [State.afterPhase_eq, h.alike.phase]

theorem afterPhase_phase : s.afterPhase.phase = t.afterPhase.phase := by
  rw [h.afterPhase_eq, State.afterPhase_eq, State.advance_phase, State.advance_phase]
  refine phaseFields_phase_congr h.alike.phase h.alike.inputs (fun hw => ?_) (fun hi => ?_) (fun hi => ?_)
  · obtain ⟨p, T, hload⟩ := exists_loads_of_isWaiting hw
    exact h.timer p _ T hload rfl
  · exact h.bitcnt (.inr (by simpa using hi))
  · exact h.scan (by simpa using hi)

theorem afterPhase_alike : s.afterPhase.Alike t.afterPhase := by
  obtain ⟨hphase, hprev, hloadN, hsck, haux, hreq, hevents, hinputs, hstimulus, htick, -⟩ := h.alike
  have hprev' : s.afterPhase.prev = t.afterPhase.prev := by
    simp only [State.afterPhase, State.advance_prev, phaseResult_prev, ← hphase, hprev, decodePhase_eq_store_iff]
    split_ifs with hstore
    · exact h.raw_eq (by simp [hstore, sampleCodes])
    · rfl
  have hevents' : s.afterPhase.events = t.afterPhase.events := by
    have hevent : phaseEvent s (decodePhase s.phase) = phaseEvent t (decodePhase s.phase) :=
      phaseEvent_congr hprev (fun hi => h.raw_eq (by rcases hi with hi | hi <;> simp_all [sampleCodes]))
        (fun hi => (h.scan (by simpa using hi)).1)
    simp only [State.afterPhase, State.advance_events, phaseResult_events, ← hphase, hevents, hevent]
  exact {
    phase := h.afterPhase_phase
    prev := hprev'
    loadN := by simp only [State.afterPhase, State.advance_loadN, phaseResult_loadN, hphase, hloadN]
    sck := by simp only [State.afterPhase, State.advance_sck, phaseResult_sck, hphase, hsck]
    aux := by simp only [State.afterPhase, State.advance_aux, phaseResult_aux, hphase, haux]
    melodyReq := by
      simp only [State.afterPhase, State.advance_melodyReq, phaseResult_melodyReq, hphase, hreq, hinputs]
    events := hevents'
    inputs := by simp [State.afterPhase, hstimulus, htick]
    stimulus := by simp [State.afterPhase, hstimulus]
    tick := by simp [State.afterPhase, htick]
    benchWord := by simp [State.afterPhase] }

theorem afterPhase_timer {p q : PhaseCode} {T : Config.TimerValue} (hload : Loads p q T)
    (hq : s.afterPhase.phase = q) : s.afterPhase.timer = t.afterPhase.timer := by
  have hphase := h.alike.phase
  obtain hp | hp : s.phase = p ∨ s.phase = q := hload.into_wait _ (afterPhase_mem_phaseGraph s) hq
  · rw [hload.timer_of_load hp, hload.timer_of_load (hphase.symm.trans hp)]
  · rw [hload.timer_of_wait hp, hload.timer_of_wait (hphase.symm.trans hp), h.timer p q T hload hp]

theorem afterPhase_bitcnt (h45 : s.afterPhase.phase = 0x4#4 ∨ s.afterPhase.phase = 0x5#4) :
    s.afterPhase.bitcnt = t.afterPhase.bitcnt := by
  have hfrom : s.phase = 0x3#4 ∨ s.phase = 0x4#4 ∨ s.phase = 0x5#4 :=
    phaseGraph_into_exchange _ (afterPhase_mem_phaseGraph s) h45
  rw [h.afterPhase_eq, State.afterPhase_eq]
  obtain hp | hp | hp := hfrom
  · simp [hp, phaseFields]
  · simp [hp, phaseFields, h.bitcnt (.inl hp)]
  · simp [hp, phaseFields, h.bitcnt (.inr hp)]

theorem afterPhase_scan (h7 : s.afterPhase.phase = 0x7#4) :
    s.afterPhase.mask = t.afterPhase.mask ∧ s.afterPhase.changed = t.afterPhase.changed := by
  have hfrom : s.phase = 0x6#4 ∨ s.phase = 0x7#4 := phaseGraph_into_scan _ (afterPhase_mem_phaseGraph s) h7
  rw [h.afterPhase_eq, State.afterPhase_eq]
  obtain hp | hp := hfrom
  · simp [hp, phaseFields, h.raw_eq (by simp [hp, sampleCodes]), h.alike.prev]
  · simp [hp, phaseFields, h.scan hp]

end Matched

/-- Outside the exchange no step adds a sampled bit. -/
theorem sampledBits_afterPhase_le {s : State} (h4 : s.phase ≠ 0x4#4) (h5 : s.phase ≠ 0x5#4) :
    sampledBits s.afterPhase ≤ sampledBits s := by
  have hedge := afterPhase_mem_phaseGraph s
  rw [sampledBits]
  split_ifs with hsample hadvance hholds
  · obtain hp | hp | hp : s.phase = 0x3#4 ∨ s.phase = 0x4#4 ∨ s.phase = 0x5#4 :=
      phaseGraph_into_exchange _ hedge (.inl hsample)
    · simp [State.afterPhase_eq, hp, phaseFields]
    · exact absurd hp h4
    · exact absurd hp h5
  · exact absurd ((phaseGraph_into_shiftAdvance _ hedge).1 hadvance) h4
  · obtain hp | hp : s.phase = 0x5#4 ∨ s.phase ∈ sampleCodes := phaseGraph_into_sampleCodes _ hedge hholds
    · exact absurd hp h5
    · rw [sampledBits, if_neg h4, if_neg h5, if_pos hp]
  · exact Nat.zero_le _

/-- `SHIFT_SAMPLE` adds one sampled bit. -/
theorem sampledBits_shiftSample {s : State} (hp : s.phase = 0x4#4) : sampledBits s.afterPhase = s.bitcnt.toNat + 1 := by
  simp [sampledBits, State.afterPhase_eq, hp, phaseFields]

/-- `SHIFT_ADVANCE` counts it: the bits sampled stay the same. -/
theorem sampledBits_shiftAdvance {s : State} (hp : s.phase = 0x5#4) :
    sampledBits s.afterPhase = s.bitcnt.toNat + 1 := by
  by_cases hlast : s.bitcnt = 7#3
  · simp [sampledBits, State.afterPhase_eq, hp, phaseFields, lastBit, hlast, sampleCodes]
  · have hlt : s.bitcnt.toNat + 1 < 8 := by
      have hne : s.bitcnt.toNat ≠ 7 := fun h => hlast (BitVec.eq_of_toNat_eq h)
      have := s.bitcnt.isLt
      omega
    simp [sampledBits, State.afterPhase_eq, hp, phaseFields, lastBit, hlast, Nat.mod_eq_of_lt hlt]

namespace Matched

variable {s t : State} (h : Matched s t)

include h

/-- `SHIFT_SAMPLE` adds the same bit to both samples, `SHIFT_ADVANCE` counts it, and no other phase writes `raw`. -/
theorem afterPhase_raw (k : Nat) (hk : k < sampledBits s.afterPhase) :
    s.afterPhase.raw.getLsbD k = t.afterPhase.raw.getLsbD k := by
  have hserIn : t.inputs.serIn = s.inputs.serIn := by rw [h.alike.inputs]
  simp only [h.afterPhase_eq, State.afterPhase_eq s, State.advance_raw, ← phaseResult_eq, phaseResult_raw,
    decodePhase_eq_shiftSample_iff]
  by_cases h4 : s.phase = 0x4#4
  · rw [sampledBits_shiftSample h4] at hk
    rw [if_pos h4, if_pos h4, hserIn]
    cases k with
    | zero => rw [shiftInLow_getLsbD_zero, shiftInLow_getLsbD_zero]
    | succ k =>
      have hlt := s.bitcnt.isLt
      rw [shiftInLow_getLsbD_succ _ _ _ (by omega), shiftInLow_getLsbD_succ _ _ _ (by omega)]
      exact h.raw k (by rw [sampledBits, if_pos h4]; omega)
  · rw [if_neg h4, if_neg h4]
    refine h.raw k ?_
    by_cases h5 : s.phase = 0x5#4
    · rw [sampledBits_shiftAdvance h5] at hk
      simpa [sampledBits, h5] using hk
    · exact hk.trans_le (sampledBits_afterPhase_le h4 h5)

/-- A phase step keeps two matched states matched. -/
theorem afterPhase : Matched s.afterPhase t.afterPhase where
  alike := h.afterPhase_alike
  timer _ _ _ hload := h.afterPhase_timer hload
  bitcnt := h.afterPhase_bitcnt
  scan := h.afterPhase_scan
  raw := h.afterPhase_raw

end Matched

/-- Matched states stay matched in any number of steps, reset edges among them. -/
theorem Matched.run {s t : State} (n : Nat) (h : Matched s t) (hb : s.benchWord = none) :
    ∃ u v, s.run n = .next u ∧ t.run n = .next v ∧ Matched u v := by
  induction n generalizing s t with
  | zero => exact ⟨s, t, rfl, rfl, h⟩
  | succ n ih =>
    have hb' : t.benchWord = none := h.alike.benchWord.symm.trans hb
    cases hr : s.inputs.rst with
    | true =>
      have hr' : t.inputs.rst = true := by rw [← h.alike.inputs, hr]
      rw [State.run_succ n (step_of_rst hr), State.run_succ n (step_of_rst hr')]
      exact ih (matched_resetEdge h.alike) (State.advance_benchWord _)
    | false =>
      have hr' : t.inputs.rst = false := by rw [← h.alike.inputs, hr]
      rw [State.run_succ n (step_of_phase hr hb), State.run_succ n (step_of_phase hr' hb')]
      exact ih h.afterPhase (State.advance_benchWord _)

/-- Settles O46: at the start of a cycle alike states are matched, and matched states stay so. -/
theorem onlyPrevCarriesInformation : Obligations.OnlyPrevCarriesInformation := by
  intro s t n h hb hp
  obtain ⟨u, v, hu, hv, hmatched⟩ := (matched_of_alike h hp).run n hb
  exact ⟨u, v, hu, hv, hmatched.alike⟩

end Sys2Proof.Machine
end

section
/-! PROOFS. The informative environment (20_memory.md): the latching contract (R52) and the reference register
(section 7). -/

namespace Sys2Proof.Machine

/-- A level that an input has in some step of the pulse may be latched. -/
theorem latches_of_mem {during : List Byte} {L : Byte} (h : L ∈ during) : Latches during L := fun _ _ => ⟨L, h, rfl⟩

/-- Settles O49: every bit of a latched byte is a bit of the constant level, and that level itself is in the pulse. -/
theorem constantInputsAreLatchedAsTheyAre : Obligations.ConstantInputsAreLatchedAsTheyAre := by
  intro during v L hne hconst
  constructor
  · refine fun h => BitVec.eq_of_getLsbD_eq fun i hi => ?_
    obtain ⟨x, hx, hbit⟩ := h i hi
    rw [hbit, hconst x hx]
  · rintro rfl
    obtain ⟨x, hx⟩ := List.exists_mem_of_ne_nil during hne
    obtain rfl := hconst x hx
    exact latches_of_mem hx

/-- In the pulse the register follows its inputs. -/
theorem ExtReg.next_of_pulse (r : ExtReg) (sckBefore sckAfter enN : Bool) (inputs : Byte) (ds : Bool) :
    (r.next false sckBefore sckAfter enN inputs ds).sr = inputs := rfl

/-- A rising edge after it shifts the register by one. -/
theorem ExtReg.next_of_edge (r : ExtReg) (inputs : Byte) (ds : Bool) :
    (r.next true false true false inputs ds).sr = shiftInLow r.sr ds := rfl

/-- After a pulse the register holds the inputs of its last step. -/
theorem ExtReg.afterPulse_append (r : ExtReg) (during : List Byte) (L : Byte) :
    (r.afterPulse (during ++ [L])).sr = L := by
  induction during generalizing r with
  | nil => exact r.next_of_pulse false false false L false
  | cons v rest ih => exact ih _

/-- After some edges each bit stands that many places higher. -/
theorem ExtReg.afterEdges_getLsbD (r : ExtReg) (ds : List Bool) {i : Nat} (hi : i + ds.length < 8) :
    (r.afterEdges ds).sr.getLsbD (i + ds.length) = r.sr.getLsbD i := by
  induction ds generalizing r i with
  | nil => rfl
  | cons d rest ih =>
    rw [List.length_cons] at hi ⊢
    rw [show i + (rest.length + 1) = (i + 1) + rest.length by omega, ExtReg.afterEdges, ih _ (by omega),
      ExtReg.next_of_edge, shiftInLow_getLsbD_succ _ _ _ (by omega)]

/-- Settles O50: the pulse by `ExtReg.afterPulse_append`, the edges by the places they move the bits. -/
theorem referenceRegisterPresentsTheLatchedByte : Obligations.ReferenceRegisterPresentsTheLatchedByte := by
  refine ⟨fun r during L => ⟨r.afterPulse_append during L, latches_of_mem (by simp)⟩, fun L ds h => ?_⟩
  have hplace : 7 - ds.length + ds.length = 7 := by omega
  have hbit := ExtReg.afterEdges_getLsbD { sr := L } ds (i := 7 - ds.length) (by omega)
  rwa [hplace] at hbit

end Sys2Proof.Machine
end
